-- ==== Sys2Proof/Word.lean ====
section
/-!
DEFINITION. Sys2Proof/Word.lean: the bit-vector types of the machine. Every value is unsigned and every write
truncates to the width of its destination (00_scope.md R5, R7).
-/
namespace Sys2Proof

/-- A general register, a timer, a memory cell, a sprite row: 8 bits (R20, R26, R28). -/
abbrev Byte := BitVec 8

/-- An instruction word, `I`, `pc`, a stack slot: 16 bits (R22, R23, R24, R70). -/
abbrev Word := BitVec 16

/-- A register index `X` or `Y`, a row count `N`, a digit, a key index: 4 bits (R6, R71). -/
abbrev Nibble := BitVec 4

/-- A 12-bit address immediate `NNN` (R71). -/
abbrev Addr := BitVec 12

end Sys2Proof
end

