-- ==== Sys2Proof/Syntax.lean ====
section
/-!
DEFINITION. Sys2Proof/Syntax.lean: the instructions, one constructor per row of spec/opcode_table.json, in its order
(30_encoding.md R76). The operands are the fields of R71; an ignored field of R78 is kept as an operand, so that no bit
of a recognised word is lost (log entry 18).
-/
namespace Sys2Proof

/-- The 34 instructions (R76). There is no other (R77, R79). -/
inductive Instr where
  /-- `00E0` CLS -/
  | cls
  /-- `00EE` RET -/
  | ret
  /-- `1NNN` JP NNN -/
  | jp (nnn : Addr)
  /-- `2NNN` CALL NNN -/
  | call (nnn : Addr)
  /-- `3XNN` SE VX, NN -/
  | seImm (x : Nibble) (nn : Byte)
  /-- `4XNN` SNE VX, NN -/
  | sneImm (x : Nibble) (nn : Byte)
  /-- `5XY0` SE VX, VY; `n` is `ir[3:0]`, ignored (R78) -/
  | seReg (x y n : Nibble)
  /-- `6XNN` LD VX, NN -/
  | ldImm (x : Nibble) (nn : Byte)
  /-- `7XNN` ADD VX, NN -/
  | addImm (x : Nibble) (nn : Byte)
  /-- `8XY0` LD VX, VY -/
  | ldReg (x y : Nibble)
  /-- `8XY1` OR VX, VY -/
  | orReg (x y : Nibble)
  /-- `8XY2` AND VX, VY -/
  | andReg (x y : Nibble)
  /-- `8XY3` XOR VX, VY -/
  | xorReg (x y : Nibble)
  /-- `8XY4` ADD VX, VY -/
  | addReg (x y : Nibble)
  /-- `8XY5` SUB VX, VY -/
  | subReg (x y : Nibble)
  /-- `8XY6` SHR VX; `y` is ignored (R78) -/
  | shr (x y : Nibble)
  /-- `8XY7` SUBN VX, VY -/
  | subnReg (x y : Nibble)
  /-- `8XYE` SHL VX; `y` is ignored (R78) -/
  | shl (x y : Nibble)
  /-- `9XY0` SNE VX, VY; `n` is `ir[3:0]`, ignored (R78) -/
  | sneReg (x y n : Nibble)
  /-- `ANNN` LD I, NNN -/
  | ldI (nnn : Addr)
  /-- `BNNN` JP V0, NNN -/
  | jpV0 (nnn : Addr)
  /-- `CXNN` RND VX, NN -/
  | rnd (x : Nibble) (nn : Byte)
  /-- `DXYN` DRW VX, VY, N -/
  | drw (x y n : Nibble)
  /-- `EX9E` SKP VX -/
  | skp (x : Nibble)
  /-- `EXA1` SKNP VX -/
  | sknp (x : Nibble)
  /-- `FX07` LD VX, DT -/
  | ldVxDt (x : Nibble)
  /-- `FX0A` LD VX, K -/
  | ldVxK (x : Nibble)
  /-- `FX15` LD DT, VX -/
  | ldDtVx (x : Nibble)
  /-- `FX18` LD ST, VX -/
  | ldStVx (x : Nibble)
  /-- `FX1E` ADD I, VX -/
  | addI (x : Nibble)
  /-- `FX29` LD F, VX -/
  | ldF (x : Nibble)
  /-- `FX33` LD B, VX -/
  | ldB (x : Nibble)
  /-- `FX55` LD [I], VX -/
  | ldMemVx (x : Nibble)
  /-- `FX65` LD VX, [I] -/
  | ldVxMem (x : Nibble)
deriving DecidableEq, Repr

end Sys2Proof
end

