-- ==== Sys2Proof/WellFormed.lean ====
section
/-!
DEFINITION. Sys2Proof/WellFormed.lean: the canonical instructions. The operand types already hold exactly the values the
fields of R71 can take; what is left to check is R78: the bits the hardware ignores are 0 in the canonical encoding,
"and an assembler emits only that". The hardware executes the other forms too (R78), and so does the model: no
statement about decoding or executing assumes this check (log entry 18).
-/
namespace Sys2Proof

/-- The canonical forms (30_encoding.md R78): ignored fields are 0. -/
def Instr.wellFormed : Instr → Bool
  | .cls | .ret => true
  | .jp _ | .call _ | .ldI _ | .jpV0 _ => true
  | .seImm _ _ | .sneImm _ _ | .ldImm _ _ | .addImm _ _ | .rnd _ _ => true
  | .seReg _ _ n | .sneReg _ _ n => n == 0
  | .ldReg _ _ | .orReg _ _ | .andReg _ _ | .xorReg _ _ | .addReg _ _ | .subReg _ _ | .subnReg _ _ => true
  | .shr _ y | .shl _ y => y == 0
  | .drw _ _ _ => true
  | .skp _ | .sknp _ | .ldVxDt _ | .ldVxK _ | .ldDtVx _ | .ldStVx _ => true
  | .addI _ | .ldF _ | .ldB _ | .ldMemVx _ | .ldVxMem _ => true

end Sys2Proof
end

