-- ==== Sys2Proof/Decode.lean ====
section
/-!
DEFINITION. Sys2Proof/Decode.lean: the decoder (30_encoding.md R75), the encoder written from the formats of R72 and the
map of R76, and the opcode map itself as data.
-/
namespace Sys2Proof

/-! ## Fields of the instruction word (R71) -/

/-- `ir[15:12]` -/
def family (ir : Word) : Nibble := ir.extractLsb' 12 4
/-- `X = ir[11:8]` -/
def fieldX (ir : Word) : Nibble := ir.extractLsb' 8 4
/-- `Y = ir[7:4]` -/
def fieldY (ir : Word) : Nibble := ir.extractLsb' 4 4
/-- `N = ir[3:0]` -/
def fieldN (ir : Word) : Nibble := ir.extractLsb' 0 4
/-- `NN = ir[7:0]` -/
def fieldNN (ir : Word) : Byte := ir.extractLsb' 0 8
/-- `NNN = ir[11:0]` -/
def fieldNNN (ir : Word) : Addr := ir.extractLsb' 0 12

/-! ## Bytes and words (20_memory.md R54, R70) -/

/-- The big-endian word of two consecutive bytes: the one at the lower address is the more significant (R54). -/
def wordOfBytes (lower upper : Byte) : Word := lower ++ upper
/-- The byte a word has at its lower address (R54). -/
def firstByte (w : Word) : Byte := w.extractLsb' 8 8
/-- The byte a word has at its upper address (R54). -/
def secondByte (w : Word) : Byte := w.extractLsb' 0 8

/-! ## Decoding (R75) -/

/-- Why a word is not an instruction. -/
inductive DecodeError where
  /-- The word matches no row of R76 (R77). It is no stop of the machine: the cycle raises the `UNKNOWN_OPCODE`
  diagnostic and goes on (60_exceptions.md R216). -/
  | unknownOpcode (ir : Word)
deriving DecidableEq, Repr

/-- Family 0x0 matches the whole word (R75). -/
def decodeFamily0 (ir : Word) : Except DecodeError Instr :=
  if ir = 0x00E0#16 then .ok .cls
  else if ir = 0x00EE#16 then .ok .ret
  else .error (.unknownOpcode ir)

/-- Family 0x8 sub-dispatches on `ir[3:0]` (R75; the numbers are R76's, log entry 13). -/
def decodeFamily8 (ir : Word) : Except DecodeError Instr :=
  match fieldN ir with
  | 0x0#4 => .ok (.ldReg (fieldX ir) (fieldY ir))
  | 0x1#4 => .ok (.orReg (fieldX ir) (fieldY ir))
  | 0x2#4 => .ok (.andReg (fieldX ir) (fieldY ir))
  | 0x3#4 => .ok (.xorReg (fieldX ir) (fieldY ir))
  | 0x4#4 => .ok (.addReg (fieldX ir) (fieldY ir))
  | 0x5#4 => .ok (.subReg (fieldX ir) (fieldY ir))
  | 0x6#4 => .ok (.shr (fieldX ir) (fieldY ir))
  | 0x7#4 => .ok (.subnReg (fieldX ir) (fieldY ir))
  | 0xE#4 => .ok (.shl (fieldX ir) (fieldY ir))
  | _ => .error (.unknownOpcode ir)

/-- Family 0xE sub-dispatches on `ir[7:0]` (R75). -/
def decodeFamilyE (ir : Word) : Except DecodeError Instr :=
  match fieldNN ir with
  | 0x9E#8 => .ok (.skp (fieldX ir))
  | 0xA1#8 => .ok (.sknp (fieldX ir))
  | _ => .error (.unknownOpcode ir)

/-- Family 0xF sub-dispatches on `ir[7:0]` (R75). -/
def decodeFamilyF (ir : Word) : Except DecodeError Instr :=
  match fieldNN ir with
  | 0x07#8 => .ok (.ldVxDt (fieldX ir))
  | 0x0A#8 => .ok (.ldVxK (fieldX ir))
  | 0x15#8 => .ok (.ldDtVx (fieldX ir))
  | 0x18#8 => .ok (.ldStVx (fieldX ir))
  | 0x1E#8 => .ok (.addI (fieldX ir))
  | 0x29#8 => .ok (.ldF (fieldX ir))
  | 0x33#8 => .ok (.ldB (fieldX ir))
  | 0x55#8 => .ok (.ldMemVx (fieldX ir))
  | 0x65#8 => .ok (.ldVxMem (fieldX ir))
  | _ => .error (.unknownOpcode ir)

/-- The two-level decoder of R75, total on the 65536 words (log entry 13). The last arm is family 0xF, the only one the
others leave. -/
def decode (ir : Word) : Except DecodeError Instr :=
  match family ir with
  | 0x0#4 => decodeFamily0 ir
  | 0x1#4 => .ok (.jp (fieldNNN ir))
  | 0x2#4 => .ok (.call (fieldNNN ir))
  | 0x3#4 => .ok (.seImm (fieldX ir) (fieldNN ir))
  | 0x4#4 => .ok (.sneImm (fieldX ir) (fieldNN ir))
  | 0x5#4 => .ok (.seReg (fieldX ir) (fieldY ir) (fieldN ir))
  | 0x6#4 => .ok (.ldImm (fieldX ir) (fieldNN ir))
  | 0x7#4 => .ok (.addImm (fieldX ir) (fieldNN ir))
  | 0x8#4 => decodeFamily8 ir
  | 0x9#4 => .ok (.sneReg (fieldX ir) (fieldY ir) (fieldN ir))
  | 0xA#4 => .ok (.ldI (fieldNNN ir))
  | 0xB#4 => .ok (.jpV0 (fieldNNN ir))
  | 0xC#4 => .ok (.rnd (fieldX ir) (fieldNN ir))
  | 0xD#4 => .ok (.drw (fieldX ir) (fieldY ir) (fieldN ir))
  | 0xE#4 => decodeFamilyE ir
  | _ => decodeFamilyF ir

/-- The instruction two consecutive bytes of memory spell (R54, R70, R75). -/
def decodeBytes (lower upper : Byte) : Except DecodeError Instr := decode (wordOfBytes lower upper)

/-- The word of an instruction whose bits are `w`, of which the table gives `nbits`; the bits above are 0. -/
def tableWord (nbits w : Nat) : Word := BitVec.ofNat 16 (w % 2 ^ nbits)

/-- What the decoder reads from the instruction whose bits are `w` in the numbering of spec/opcode_table.json: the word
is laid out as its two bytes and the bytes are decoded. -/
def decodeTableWord (nbits w : Nat) : Option Instr :=
  match decodeBytes (firstByte (tableWord nbits w)) (secondByte (tableWord nbits w)) with
  | .ok i => some i
  | .error _ => none

/-! ## Encoding (R72, R76) -/

/-- Format `ADDR` (R72). -/
def encodeAddr (f : Nibble) (nnn : Addr) : Word := f ++ nnn
/-- Format `REG_IMM` (R72). -/
def encodeRegImm (f x : Nibble) (nn : Byte) : Word := f ++ (x ++ nn)
/-- Formats `REG_REG` and `REG_REG_N` (R72). -/
def encodeRegReg (f x y n : Nibble) : Word := f ++ (x ++ (y ++ n))
/-- Format `REG_SUB` (R72). -/
def encodeRegSub (f x : Nibble) (sub : Byte) : Word := f ++ (x ++ sub)

/-- The word of an instruction (R72, R76). -/
def encode : Instr → Word
  | .cls => 0x00E0#16
  | .ret => 0x00EE#16
  | .jp nnn => encodeAddr 0x1#4 nnn
  | .call nnn => encodeAddr 0x2#4 nnn
  | .seImm x nn => encodeRegImm 0x3#4 x nn
  | .sneImm x nn => encodeRegImm 0x4#4 x nn
  | .seReg x y n => encodeRegReg 0x5#4 x y n
  | .ldImm x nn => encodeRegImm 0x6#4 x nn
  | .addImm x nn => encodeRegImm 0x7#4 x nn
  | .ldReg x y => encodeRegReg 0x8#4 x y 0x0#4
  | .orReg x y => encodeRegReg 0x8#4 x y 0x1#4
  | .andReg x y => encodeRegReg 0x8#4 x y 0x2#4
  | .xorReg x y => encodeRegReg 0x8#4 x y 0x3#4
  | .addReg x y => encodeRegReg 0x8#4 x y 0x4#4
  | .subReg x y => encodeRegReg 0x8#4 x y 0x5#4
  | .shr x y => encodeRegReg 0x8#4 x y 0x6#4
  | .subnReg x y => encodeRegReg 0x8#4 x y 0x7#4
  | .shl x y => encodeRegReg 0x8#4 x y 0xE#4
  | .sneReg x y n => encodeRegReg 0x9#4 x y n
  | .ldI nnn => encodeAddr 0xA#4 nnn
  | .jpV0 nnn => encodeAddr 0xB#4 nnn
  | .rnd x nn => encodeRegImm 0xC#4 x nn
  | .drw x y n => encodeRegReg 0xD#4 x y n
  | .skp x => encodeRegSub 0xE#4 x 0x9E#8
  | .sknp x => encodeRegSub 0xE#4 x 0xA1#8
  | .ldVxDt x => encodeRegSub 0xF#4 x 0x07#8
  | .ldVxK x => encodeRegSub 0xF#4 x 0x0A#8
  | .ldDtVx x => encodeRegSub 0xF#4 x 0x15#8
  | .ldStVx x => encodeRegSub 0xF#4 x 0x18#8
  | .addI x => encodeRegSub 0xF#4 x 0x1E#8
  | .ldF x => encodeRegSub 0xF#4 x 0x29#8
  | .ldB x => encodeRegSub 0xF#4 x 0x33#8
  | .ldMemVx x => encodeRegSub 0xF#4 x 0x55#8
  | .ldVxMem x => encodeRegSub 0xF#4 x 0x65#8

/-! ## The opcode map as data (R76) -/

/-- The `mask` and `match` columns of one row of R76. -/
structure OpcodeRow where
  mask : Word
  pattern : Word
deriving DecidableEq, Repr

/-- A word selects a row when `ir AND mask = match` (R76). -/
def OpcodeRow.selects (r : OpcodeRow) (ir : Word) : Bool := (ir &&& r.mask) == r.pattern

/-- The row of R76 an instruction stands in. -/
def opcodeRow : Instr → OpcodeRow
  | .cls => ⟨0xFFFF#16, 0x00E0#16⟩
  | .ret => ⟨0xFFFF#16, 0x00EE#16⟩
  | .jp _ => ⟨0xF000#16, 0x1000#16⟩
  | .call _ => ⟨0xF000#16, 0x2000#16⟩
  | .seImm _ _ => ⟨0xF000#16, 0x3000#16⟩
  | .sneImm _ _ => ⟨0xF000#16, 0x4000#16⟩
  | .seReg _ _ _ => ⟨0xF000#16, 0x5000#16⟩
  | .ldImm _ _ => ⟨0xF000#16, 0x6000#16⟩
  | .addImm _ _ => ⟨0xF000#16, 0x7000#16⟩
  | .ldReg _ _ => ⟨0xF00F#16, 0x8000#16⟩
  | .orReg _ _ => ⟨0xF00F#16, 0x8001#16⟩
  | .andReg _ _ => ⟨0xF00F#16, 0x8002#16⟩
  | .xorReg _ _ => ⟨0xF00F#16, 0x8003#16⟩
  | .addReg _ _ => ⟨0xF00F#16, 0x8004#16⟩
  | .subReg _ _ => ⟨0xF00F#16, 0x8005#16⟩
  | .shr _ _ => ⟨0xF00F#16, 0x8006#16⟩
  | .subnReg _ _ => ⟨0xF00F#16, 0x8007#16⟩
  | .shl _ _ => ⟨0xF00F#16, 0x800E#16⟩
  | .sneReg _ _ _ => ⟨0xF000#16, 0x9000#16⟩
  | .ldI _ => ⟨0xF000#16, 0xA000#16⟩
  | .jpV0 _ => ⟨0xF000#16, 0xB000#16⟩
  | .rnd _ _ => ⟨0xF000#16, 0xC000#16⟩
  | .drw _ _ _ => ⟨0xF000#16, 0xD000#16⟩
  | .skp _ => ⟨0xF0FF#16, 0xE09E#16⟩
  | .sknp _ => ⟨0xF0FF#16, 0xE0A1#16⟩
  | .ldVxDt _ => ⟨0xF0FF#16, 0xF007#16⟩
  | .ldVxK _ => ⟨0xF0FF#16, 0xF00A#16⟩
  | .ldDtVx _ => ⟨0xF0FF#16, 0xF015#16⟩
  | .ldStVx _ => ⟨0xF0FF#16, 0xF018#16⟩
  | .addI _ => ⟨0xF0FF#16, 0xF01E#16⟩
  | .ldF _ => ⟨0xF0FF#16, 0xF029#16⟩
  | .ldB _ => ⟨0xF0FF#16, 0xF033#16⟩
  | .ldMemVx _ => ⟨0xF0FF#16, 0xF055#16⟩
  | .ldVxMem _ => ⟨0xF0FF#16, 0xF065#16⟩

/-- One instruction of each row of R76, in the order of the map: `opcodeMap` is the 34 rows. -/
def opcodeMap : List OpcodeRow :=
  [.cls, .ret, .jp 0, .call 0, .seImm 0 0, .sneImm 0 0, .seReg 0 0 0, .ldImm 0 0, .addImm 0 0].map opcodeRow ++
  [.ldReg 0 0, .orReg 0 0, .andReg 0 0, .xorReg 0 0, .addReg 0 0, .subReg 0 0, .shr 0 0, .subnReg 0 0, .shl 0 0].map
    opcodeRow ++
  [.sneReg 0 0 0, .ldI 0, .jpV0 0, .rnd 0 0, .drw 0 0 0, .skp 0, .sknp 0].map opcodeRow ++
  [.ldVxDt 0, .ldVxK 0, .ldDtVx 0, .ldStVx 0, .addI 0, .ldF 0, .ldB 0, .ldMemVx 0, .ldVxMem 0].map opcodeRow

end Sys2Proof
end

