-- ==== Sys2Proof/Config.lean ====
section
/-!
DEFINITION. Sys2Proof/Config.lean: the parameters of the hardware (00_scope.md R4, each fixed by the spec) and the two
values the host is free to choose in every cycle (10_state.md R32, R33).
-/
namespace Sys2Proof

/-- `MEM_SIZE`: 4096 bytes, addresses 0x000 to 0xFFF (R4, R50). -/
@[simp] abbrev Config.memSize : Nat := 4096

/-- `FONT_BASE` (R4, R61). -/
@[simp] abbrev Config.fontBase : Nat := 0x050

/-- `FONT_SIZE`: 16 glyphs of 5 bytes (R4, R61). -/
@[simp] abbrev Config.fontSize : Nat := 80

/-- `GLYPH_ROWS` (R4, R61). -/
@[simp] abbrev Config.glyphRows : Nat := 5

/-- `PROG_BASE`, which is also the value of `pc` after reset (R4, R240). -/
@[simp] abbrev Config.progBase : Nat := 0x200

/-- `PROG_MAX`: the largest program image, 4096 - 512 bytes (R4, R63). -/
@[simp] abbrev Config.progMax : Nat := 3584

/-- `STACK_DEPTH` (R4, R24). -/
@[simp] abbrev Config.stackDepth : Nat := 16

/-- `DISP_W` (R4, R180). -/
@[simp] abbrev Config.dispW : Nat := 64

/-- `DISP_H` (R4, R180). -/
@[simp] abbrev Config.dispH : Nat := 32

/-- `SPRITE_W`: the columns of a sprite row (R4, R181). -/
@[simp] abbrev Config.spriteW : Nat := 8

/-- FREE VALUE (R32, log entry 1): the keys the host presents to the cycle numbered by the argument. It has no body:
nothing can be proved of its values. -/
opaque Config.hostKeys : Nat → BitVec 16

/-- FREE VALUE (R33, R144, log entry 1): the random byte the host presents to the cycle numbered by the argument. It
has no body: nothing can be proved of its values. -/
opaque Config.hostRandom : Nat → Byte

end Sys2Proof
end

