-- ==== Sys2Proof/Machine/State.lean ====
section
/-!
DEFINITION. Sys2Proof/Machine/State.lean: the state of the core as plain data (10_state.md R20 to R38), the reasons a step
can stop, and the state after reset (70_reset_and_hazards.md R240).
-/
namespace Sys2Proof.Machine

open Sys2Proof (Byte Word)

/-- The memory, as the bytes that differ from what it holds after reset: (address, byte) pairs, addresses strictly
rising (R28; `Memory.wf` in Machine/Ops.lean says the form). -/
abbrev Memory := List Host.Cell

/-- `diag_cause` (60_exceptions.md R215): code 0, no diagnostic, is `State.diag = none`. -/
inductive DiagCause where
  /-- code 1: a word that matches no row of the opcode map (R216) -/
  | unknownOpcode
  /-- code 2: a call with all 16 slots in use (R217) -/
  | stackOverflow
  /-- code 3: a return with no slot in use (R218) -/
  | stackUnderflow
deriving DecidableEq, Repr

/-- What the diagnostic outputs carry when `diag_valid` is 1 (R215). -/
structure Diag where
  /-- `diag_cause` -/
  cause : DiagCause
  /-- `diag_ir`: the instruction word of the cycle -/
  ir : Word
  /-- `diag_pc`: the `pc` at the start of the cycle -/
  pc : Word
deriving DecidableEq, Repr

/-- The state between two cycles. -/
structure State where
  /-- `V[0]` .. `V[15]`; `V[15]` is VF (R20, R21) -/
  v : Vector Byte 16
  /-- the address register `I` (R22) -/
  i : Word
  /-- the instruction pointer (R23) -/
  pc : Word
  /-- the call stack, outside memory (R24) -/
  stack : Vector Word 16
  /-- the stack pointer: an 8-bit register that holds 0 to 16 (R25) -/
  sp : Byte
  /-- `delay_timer` (R26) -/
  dt : Byte
  /-- `sound_timer` (R27) -/
  st : Byte
  /-- the 4096 bytes of memory (R28) -/
  mem : Memory
  /-- the display: cell `64*y + x` is column `x` of row `y` (R29) -/
  gfx : Vector Bool 2048
  /-- the redraw flag (R30) -/
  redraw : Bool
  /-- the `opcode` scratch register, the latch of `ir` (R31) -/
  opcode : Word
  /-- INPUT of the next cycle: bit `k` is 1 when key `k` is pressed (R32) -/
  key : BitVec 16
  /-- INPUT of the next cycle: the random byte (R33) -/
  rnd : Byte
  /-- OUTPUT of the cycle just completed: the tone pulse (R34, R227) -/
  tone : Bool
  /-- OUTPUT of the cycle just completed: the diagnostic, none when `diag_valid` is 0 (R34, R215) -/
  diag : Option Diag
  /-- the MODEL'S OWN counter of the inputs the host has presented (log entry 1) -/
  turn : Nat
deriving DecidableEq, Repr

/-- Why the machine stops. The hardware itself never does (R219, R251). -/
inductive Fault where
  /-- Raised by `CALL` and `RET` in a state whose `sp` is above 16, which no rule produces (R25) and no run from reset
  reaches: there is no slot the spec names for it. Safe: the model stops where the spec says nothing (log entry 12). -/
  | stackPointerOutOfRange (sp : Byte)
deriving DecidableEq, Repr

/-- Why an instruction has no meaning. -/
inductive Refusal where
  /-- Raised by an arm of `exec` whose instruction has no meaning yet; no arm does. Safe: nothing is claimed of it. -/
  | notModelled (mnemonic : String)
deriving DecidableEq, Repr

/-- The state right after reset (R38, R240). The spec states every value but those of `key` and `rnd`, which are inputs,
and of the model's own `turn`: they are 0 here, and log entry 1 says so. `redraw` is 0 by decision D19 (log entry 15).
Memory lists nothing: it reads as its reset contents. -/
def State.reset : State where
  v := Vector.replicate 16 0
  i := 0
  pc := 0x200
  stack := Vector.replicate 16 0
  sp := 0
  dt := 0
  st := 0
  mem := []
  gfx := Vector.replicate 2048 false
  redraw := false
  opcode := 0
  key := 0
  rnd := 0
  tone := false
  diag := none
  turn := 0

end Sys2Proof.Machine
end

