-- ==== Sys2Proof/Machine/Ops.lean ====
section
/-!
DEFINITION. Sys2Proof/Machine/Ops.lean: the named operations over memory and registers, raising a diagnostic, the phases of a
cycle around the execution of its instruction, and the actions of the host between cycles.
-/
namespace Sys2Proof.Machine

open Sys2Proof (Byte Word Nibble Addr)

/-! ## One update per field -/

/-- `V[x]` (00_scope.md R7). -/
def State.reg (s : State) (x : Nibble) : Byte := s.v[x.toNat]
/-- `V[x] <- b` (R7, R20). -/
def State.setReg (s : State) (x : Nibble) (b : Byte) : State := { s with v := s.v.set x.toNat b }
/-- `I <- w` (R22). -/
def State.setI (s : State) (w : Word) : State := { s with i := w }
/-- `pc <- w` (R23). -/
def State.setPc (s : State) (w : Word) : State := { s with pc := w }
/-- `stack[k]` (R24). -/
def State.slot (s : State) (k : Nibble) : Word := s.stack[k.toNat]
/-- `stack[k] <- w` (R24). -/
def State.setSlot (s : State) (k : Nibble) (w : Word) : State := { s with stack := s.stack.set k.toNat w }
/-- `sp <- b` (R25). -/
def State.setSp (s : State) (b : Byte) : State := { s with sp := b }
/-- `dt <- b` (R26). -/
def State.setDt (s : State) (b : Byte) : State := { s with dt := b }
/-- `st <- b` (R27). -/
def State.setSt (s : State) (b : Byte) : State := { s with st := b }
/-- The memory as a whole (R28). -/
def State.setMem (s : State) (m : Memory) : State := { s with mem := m }
/-- `gfx[k]` (R29). -/
def State.cell (s : State) (k : Fin 2048) : Bool := s.gfx[k.val]
/-- The display as a whole (R29). -/
def State.setGfx (s : State) (g : Vector Bool 2048) : State := { s with gfx := g }
/-- `redraw <- b` (R30). -/
def State.setRedraw (s : State) (b : Bool) : State := { s with redraw := b }
/-- The `opcode` scratch register (R31). -/
def State.setOpcode (s : State) (w : Word) : State := { s with opcode := w }
/-- The key inputs of the next cycle (R32). -/
def State.setKey (s : State) (k : BitVec 16) : State := { s with key := k }
/-- The random byte of the next cycle (R33). -/
def State.setRnd (s : State) (b : Byte) : State := { s with rnd := b }
/-- The `tone` output (R34). -/
def State.setTone (s : State) (b : Bool) : State := { s with tone := b }
/-- The diagnostic outputs (R34). -/
def State.setDiag (s : State) (d : Option Diag) : State := { s with diag := d }
/-- The model's own counter (log entry 1). -/
def State.setTurn (s : State) (n : Nat) : State := { s with turn := n }

/-! ## Memory (20_memory.md) -/

/-- The font: 16 glyphs of 5 bytes in digit order (R62, [from general knowledge, not in source], log entry 6). -/
def fontTable : List Byte :=
  [0xF0, 0x90, 0x90, 0x90, 0xF0] ++ [0x20, 0x60, 0x20, 0x20, 0x70] ++ [0xF0, 0x10, 0xF0, 0x80, 0xF0] ++
  [0xF0, 0x10, 0xF0, 0x10, 0xF0] ++ [0x90, 0x90, 0xF0, 0x10, 0x10] ++ [0xF0, 0x80, 0xF0, 0x10, 0xF0] ++
  [0xF0, 0x80, 0xF0, 0x90, 0xF0] ++ [0xF0, 0x10, 0x20, 0x40, 0x40] ++ [0xF0, 0x90, 0xF0, 0x90, 0xF0] ++
  [0xF0, 0x90, 0xF0, 0x10, 0xF0] ++ [0xF0, 0x90, 0xF0, 0x90, 0x90] ++ [0xE0, 0x90, 0xE0, 0x90, 0xE0] ++
  [0xF0, 0x80, 0x80, 0x80, 0xF0] ++ [0xE0, 0x90, 0x90, 0x90, 0xE0] ++ [0xF0, 0x80, 0xF0, 0x80, 0xF0] ++
  [0xF0, 0x80, 0xF0, 0x80, 0x80]

/-- What an unlisted address reads as: the reset contents, the font at 0x050 to 0x09F and 0 elsewhere (R28, R240). -/
def initialByte (a : Nat) : Byte :=
  if Config.fontBase ≤ a ∧ a < Config.fontBase + Config.fontSize then fontTable.getD (a - Config.fontBase) 0 else 0

/-- The byte at an address of the 4096. -/
def Memory.read : Memory → Nat → Byte
  | [], a => initialByte a
  | (k, b) :: rest, a => if k = a then b else Memory.read rest a

/-- Memory with one byte written. Writing what the address reads as when unlisted removes its entry. -/
def Memory.write : Memory → Nat → Byte → Memory
  | [], a, b => if b = initialByte a then [] else [(a, b)]
  | (k, c) :: rest, a, b =>
    if a < k then (if b = initialByte a then (k, c) :: rest else (a, b) :: (k, c) :: rest)
    else if a = k then (if b = initialByte a then rest else (a, b) :: rest)
    else (k, c) :: Memory.write rest a b

/-- The canonical form from address `lo` on: addresses at least `lo`, strictly rising, below 4096, and no entry equal to
what its address reads as when unlisted. -/
def Memory.wfFrom : Nat → Memory → Bool
  | _, [] => true
  | lo, (k, b) :: rest => decide (lo ≤ k) && decide (k < Config.memSize) && (b != initialByte k) && Memory.wfFrom (k + 1) rest

/-- The canonical form of a memory: equal memories are equal lists. -/
def Memory.wf (m : Memory) : Bool := Memory.wfFrom 0 m

/-- `MemRead(addr, 1)`: only the low 12 bits of the address select the byte (R53, decision D2, log entry 2). -/
def State.memRead (s : State) (addr : Nat) : Byte := s.mem.read (addr % Config.memSize)

/-- `MemWrite(addr, 1, b)` (R53). No address is protected (R52, log entry 8). -/
def State.memWrite (s : State) (addr : Nat) (b : Byte) : State := s.setMem (s.mem.write (addr % Config.memSize) b)

/-- The instruction word at `pc`: `mem[pc mod 4096] ∥ mem[(pc + 1) mod 4096]` (40_cycle_and_control_flow.md R101). -/
def State.fetch (s : State) : Word := wordOfBytes (s.memRead s.pc.toNat) (s.memRead (s.pc.toNat + 1))

/-! ## The instruction pointer (R102) -/

/-- `pc <- pc + 2`, modulo 65536 (R102). -/
def State.advance (s : State) : State := s.setPc (s.pc + 2)

/-- A skip: `pc <- pc + 4` when the condition holds, else `pc <- pc + 2` (R102 (b)). -/
def State.skipIf (s : State) (c : Bool) : State := s.setPc (s.pc + if c then 4 else 2)

/-! ## The call stack (R24, R25) -/

/-- A push: `stack[sp] <- w`, then `sp <- sp + 1`. The index is `sp`, which is at most 15 where this is used. -/
def State.push (s : State) (w : Word) : State := (s.setSlot (s.sp.setWidth 4) w).setSp (s.sp + 1)

/-- The slot a return reads: `stack[sp - 1]`. The index is `sp - 1`, which is at most 15 where this is used. -/
def State.top (s : State) : Word := s.slot ((s.sp - 1).setWidth 4)

/-- A pop: `sp <- sp - 1`. The slot keeps its value (R24, decision D22, log entry 16). -/
def State.pop (s : State) : State := s.setSp (s.sp - 1)

/-! ## Diagnostics (60_exceptions.md R215 to R218) -/

/-- The 2-bit `diag_cause` of a diagnostic (R215). -/
def DiagCause.code : DiagCause → BitVec 2
  | .unknownOpcode => 1
  | .stackOverflow => 2
  | .stackUnderflow => 3

/-- The `diag_valid` output (R215). -/
def State.diagValid (s : State) : Bool := s.diag.isSome

/-- The `diag_cause` output as two bits: 0 when no diagnostic is raised (R215). -/
def State.diagCode (s : State) : BitVec 2 :=
  match s.diag with
  | none => 0
  | some d => d.cause.code

/-- `raise Diag(cause, ir)` and what the three conditions then do: the outputs carry the cause, the instruction word of
the cycle and its address, and `pc <- pc + 2`. No state is saved and control is not redirected (R215, R222); there is no
return from it (R223). The going on is INFERRED, in the spec's word (93_implementation_defined.md U1, U2): decisions D4,
D5, D6 (log entries 3 and 4). -/
def State.raise (s : State) (cause : DiagCause) : State :=
  (s.setDiag (some ⟨cause, s.opcode, s.pc⟩)).advance

/-! ## The display (43_display.md) -/

/-- The display with every cell 0 (R182). -/
def blankDisplay : Vector Bool 2048 := Vector.replicate 2048 false

/-! ## The keys (44_timers_and_keys.md) -/

/-- `key[k]` (R32). -/
def State.pressed (s : State) (k : Nibble) : Bool := s.key.getLsbD k.toNat

/-- The least pressed key, if any is pressed (R200). -/
def lowestKey (key : BitVec 16) : Option Nat := (List.range 16).find? (fun k => key.getLsbD k)

/-! ## The phases of a cycle (40_cycle_and_control_flow.md R100) -/

/-- `Done` or `Suspend` (R100). -/
inductive CycleResult where
  | done
  | suspend
deriving DecidableEq, Repr

/-- The result of executing an instruction: `Suspend` exactly for `FX0A` with no key pressed (R200, R201). It is not
stored: every cycle decides it anew (10_state.md R36). -/
def cycleResult : Instr → State → CycleResult
  | .ldVxK _, s => if s.key = 0 then .suspend else .done
  | .cls, _ | .ret, _ | .jp _, _ | .call _, _ | .ldI _, _ | .jpV0 _, _ => .done
  | .seImm _ _, _ | .sneImm _ _, _ | .ldImm _ _, _ | .addImm _ _, _ | .rnd _ _, _ => .done
  | .seReg _ _ _, _ | .sneReg _ _ _, _ | .drw _ _ _, _ => .done
  | .ldReg _ _, _ | .orReg _ _, _ | .andReg _ _, _ | .xorReg _ _, _ | .addReg _ _, _ | .subReg _ _, _ => .done
  | .shr _ _, _ | .subnReg _ _, _ | .shl _ _, _ => .done
  | .skp _, _ | .sknp _, _ | .ldVxDt _, _ | .ldDtVx _, _ | .ldStVx _, _ => .done
  | .addI _, _ | .ldF _, _ | .ldB _, _ | .ldMemVx _, _ | .ldVxMem _, _ => .done

/-- The start of a cycle: the fetched word is latched in the `opcode` scratch register (R31), and the pulse outputs are
inactive until the cycle raises them (R34). -/
def State.beginCycle (s : State) : State := ((s.setOpcode s.fetch).setTone false).setDiag none

/-- A timer counts down and stays at 0 (R225). -/
def countDown (t : Byte) : Byte := if t = 0 then 0 else t - 1

/-- The timer tick: both timers count down, and `tone` is raised when `st` is exactly 1 before its decrement (R225,
R227). -/
def State.timerTick (s : State) : State :=
  ((s.setDt (countDown s.dt)).setTone (s.tone || s.st == 1)).setSt (countDown s.st)

/-- Between two cycles the host presents new inputs to the next one. They are free values (R32, R33, log entry 1). -/
def State.presentInputs (s : State) : State :=
  ((s.setKey (Config.hostKeys s.turn)).setRnd (Config.hostRandom s.turn)).setTurn (s.turn + 1)

/-- The end of a cycle: the tick, unless the cycle suspended (R100, R225), then the next inputs. -/
def State.endCycle (s : State) (r : CycleResult) : State :=
  match r with
  | .done => s.timerTick.presentInputs
  | .suspend => s.presentInputs

/-- The cycle of a word that is no instruction: the diagnostic, the tick, nothing else (R216). -/
def State.unknownCycle (s : State) : State := (s.beginCycle.raise .unknownOpcode).endCycle .done

/-- The rest of a cycle once its instruction has executed with the given outcome. -/
def finishCycle (r : CycleResult) : Host.Outcome State Fault Refusal → Host.Outcome State Fault Refusal
  | .next t => .next (t.endCycle r)
  | .fault f => .fault f
  | .refused f => .refused f

/-! ## The host between cycles (10_state.md R35, R63, R240 to R242) -/

/-- `reset`: every state element at its reset value, whatever the state before (R240, R241). The inputs are not reset (R32,
R33): what the host presents stays presented, and the model's own count of it goes on. -/
def State.hostReset (s : State) : State := ((State.reset.setKey s.key).setRnd s.rnd).setTurn s.turn

/-- The host memory port: one byte at a 12-bit address (R35). -/
def State.hostStore (s : State) (a : Addr) (b : Byte) : State := s.memWrite a.toNat b

/-- The bytes of a program image at addresses `a`, `a + 1`, ... -/
def State.storeBytes (s : State) (a : Nat) : List Byte → State
  | [] => s
  | b :: rest => (s.memWrite a b).storeBytes (a + 1) rest

/-- Loading a program: byte `j` of the image goes to `mem[0x200 + j]`; an image has at most 3584 bytes (R63, R242). -/
def State.loadImage (s : State) (image : List Byte) : State := s.storeBytes Config.progBase image

/-- `redraw_clr` (R35). -/
def State.clearRedraw (s : State) : State := s.setRedraw false

/-- The host chooses the inputs of the next cycle (R8, R32, R33). -/
def State.offer (s : State) (key : BitVec 16) (rnd : Byte) : State := (s.setKey key).setRnd rnd

/-- An instruction word placed where the next fetch reads (R101). -/
def State.placeWord (s : State) (w : Word) : State :=
  (s.memWrite s.pc.toNat (firstByte w)).memWrite (s.pc.toNat + 1) (secondByte w)

end Sys2Proof.Machine
end

