-- ==== Sys2Proof/Machine/Operands.lean ====
section
/-!
DEFINITION. Sys2Proof/Machine/Operands.lean: the operand forms (30_encoding.md R74, 42_index_and_memory.md R164).
-/
namespace Sys2Proof.Machine

open Sys2Proof (Byte Word Nibble Addr)

/-- `zext_16(NNN)` (R74). -/
def zextAddr (nnn : Addr) : Word := nnn.setWidth 16

/-- `zext_16` of a register (R107, R161). -/
def zextByte (b : Byte) : Word := b.setWidth 16

/-- `b AND 0x0F`, the digit or key index a register names (R162, R198, R199; decisions D14 and D15, log entry 14). -/
def lowNibble (b : Byte) : Nibble := b.setWidth 4

/-- The register with index `k`, for the block transfers (R165, R166). -/
def regIndex (k : Nat) : Nibble := BitVec.ofNat 4 k

/-- The address of byte `k` of a transfer: `(I + k) mod 4096` (R164, decision D2, log entry 2). -/
def State.effAddr (s : State) (k : Nat) : Nat := (s.i.toNat + k) % Config.memSize

/-- The address of the glyph of a digit: `0x050 + 5 * (b AND 0x0F)` (R61, R162). -/
def glyphAddr (b : Byte) : Word := BitVec.ofNat 16 (Config.fontBase + Config.glyphRows * (lowNibble b).toNat)

/-- The hundreds digit (R163). -/
def hundreds (b : Byte) : Byte := BitVec.ofNat 8 (b.toNat / 100)
/-- The tens digit (R163). -/
def tens (b : Byte) : Byte := BitVec.ofNat 8 (b.toNat / 10 % 10)
/-- The ones digit (R163). -/
def ones (b : Byte) : Byte := BitVec.ofNat 8 (b.toNat % 10)

/-- `mem[I + k] <- V[k]` for `k` from 0 to `n - 1`, ascending (R165). -/
def State.storeRegs (s : State) : Nat → State
  | 0 => s
  | k + 1 => (s.storeRegs k).memWrite (s.effAddr k) (s.reg (regIndex k))

/-- `V[k] <- mem[I + k]` for `k` from 0 to `n - 1`, ascending (R166). -/
def State.loadRegs (s : State) : Nat → State
  | 0 => s
  | k + 1 => (s.loadRegs k).setReg (regIndex k) (s.memRead (s.effAddr k))

end Sys2Proof.Machine
end

