-- ==== Sys2Proof/Machine/Flags.lean ====
section
/-!
DEFINITION. Sys2Proof/Machine/Flags.lean: the flag conventions of the five flag instructions and of the draw (41_alu.md
R131, R132; 43_display.md R183).
-/
namespace Sys2Proof.Machine

open Sys2Proof (Byte Nibble)

/-- VF, the index of the flag register (10_state.md R21). -/
def vf : Nibble := 0xF#4

/-- A flag as the register holds it: 1 or 0 (R21). -/
def flagByte (f : Bool) : Byte := if f then 1 else 0

/-- The carry of `ADD`: 1 if `a + b > 255` (R132). -/
def carry (a b : Byte) : Bool := decide (255 < a.toNat + b.toNat)

/-- The flag of `SUB` for `a - b` and of `SUBN` for `b - a`: 1 when there is no borrow, minuend at least subtrahend
(R132). -/
def noBorrow (minuend subtrahend : Byte) : Bool := decide (subtrahend.toNat ≤ minuend.toNat)

/-- The bit `SHR` shifts out: `a[0]` (R132). -/
def lowBitOut (a : Byte) : Bool := a.getLsbD 0

/-- The bit `SHL` shifts out: `a[7]` (R132). -/
def highBitOut (a : Byte) : Bool := a.getLsbD 7

/-- VF written with a flag. -/
def State.setFlag (s : State) (f : Bool) : State := s.setReg vf (flagByte f)

/-- The result to `V[x]`, then the flag to VF, so that the flag wins when `x` is 0xF (R131, decision D10, log
entry 5). -/
def State.setResultAndFlag (s : State) (x : Nibble) (r : Byte) (f : Bool) : State := (s.setReg x r).setFlag f

end Sys2Proof.Machine
end

