-- ==== Sys2Proof/Machine/Alu.lean ====
section
/-!
DEFINITION. Sys2Proof/Machine/Alu.lean: register loads, arithmetic, logic and the random byte (41_alu.md R130 to R144). Every
meaning ends with `pc <- pc + 2`; all arithmetic wraps modulo 256 (R130).
-/
namespace Sys2Proof.Machine

open Sys2Proof (Byte Nibble)

/-- `V[X] <- r`, no flag, then `pc <- pc + 2`. -/
def State.aluResult (s : State) (x : Nibble) (r : Byte) : State := (s.setReg x r).advance

/-- `V[X] <- r`, then the flag, then `pc <- pc + 2` (R131). -/
def State.aluResultFlag (s : State) (x : Nibble) (r : Byte) (f : Bool) : State := (s.setResultAndFlag x r f).advance

/-- `6XNN` LD VX, NN (R133). -/
def execLdImm (x : Nibble) (nn : Byte) (s : State) : Host.Outcome State Fault Refusal := .next (s.aluResult x nn)

/-- `7XNN` ADD VX, NN: no flag (R134). -/
def execAddImm (x : Nibble) (nn : Byte) (s : State) : Host.Outcome State Fault Refusal :=
  .next (s.aluResult x (s.reg x + nn))

/-- `8XY0` LD VX, VY (R135). -/
def execLdReg (x y : Nibble) (s : State) : Host.Outcome State Fault Refusal := .next (s.aluResult x (s.reg y))

/-- `8XY1` OR VX, VY: no flag (R136). -/
def execOrReg (x y : Nibble) (s : State) : Host.Outcome State Fault Refusal :=
  .next (s.aluResult x (s.reg x ||| s.reg y))

/-- `8XY2` AND VX, VY: no flag (R137). -/
def execAndReg (x y : Nibble) (s : State) : Host.Outcome State Fault Refusal :=
  .next (s.aluResult x (s.reg x &&& s.reg y))

/-- `8XY3` XOR VX, VY: no flag (R138). -/
def execXorReg (x y : Nibble) (s : State) : Host.Outcome State Fault Refusal :=
  .next (s.aluResult x (s.reg x ^^^ s.reg y))

/-- `8XY4` ADD VX, VY: VF = carry (R139). -/
def execAddReg (x y : Nibble) (s : State) : Host.Outcome State Fault Refusal :=
  .next (s.aluResultFlag x (s.reg x + s.reg y) (carry (s.reg x) (s.reg y)))

/-- `8XY5` SUB VX, VY: `V[X] - V[Y]`, VF = 1 when there is no borrow (R140). -/
def execSubReg (x y : Nibble) (s : State) : Host.Outcome State Fault Refusal :=
  .next (s.aluResultFlag x (s.reg x - s.reg y) (noBorrow (s.reg x) (s.reg y)))

/-- `8XY6` SHR VX: `V[X]` shifted in place, VF = the bit shifted out; `Y` is ignored (R141, decision D11, log
entry 13). -/
def execShr (x : Nibble) (s : State) : Host.Outcome State Fault Refusal :=
  .next (s.aluResultFlag x (s.reg x >>> 1) (lowBitOut (s.reg x)))

/-- `8XY7` SUBN VX, VY: `V[Y] - V[X]`, VF = 1 when there is no borrow (R142). -/
def execSubnReg (x y : Nibble) (s : State) : Host.Outcome State Fault Refusal :=
  .next (s.aluResultFlag x (s.reg y - s.reg x) (noBorrow (s.reg y) (s.reg x)))

/-- `8XYE` SHL VX: `V[X]` shifted in place, VF = the bit shifted out; `Y` is ignored (R143, decision D11, log
entry 13). -/
def execShl (x : Nibble) (s : State) : Host.Outcome State Fault Refusal :=
  .next (s.aluResultFlag x (s.reg x <<< 1) (highBitOut (s.reg x)))

/-- `CXNN` RND VX, NN: `V[X] <- rnd AND NN`, where `rnd` is the free input of the cycle (R144, R33, log entry 1). -/
def execRnd (x : Nibble) (nn : Byte) (s : State) : Host.Outcome State Fault Refusal :=
  .next (s.aluResult x (s.rnd &&& nn))

end Sys2Proof.Machine
end

