-- ==== Sys2Proof/Machine/ControlFlow.lean ====
section
/-!
DEFINITION. Sys2Proof/Machine/ControlFlow.lean: jumps, call and return, the skips on registers (40_cycle_and_control_flow.md
R104 to R111).
-/
namespace Sys2Proof.Machine

open Sys2Proof (Byte Nibble Addr)

/-- `1NNN` JP NNN: `pc <- zext_16(NNN)` (R104). -/
def execJp (nnn : Addr) (s : State) : Host.Outcome State Fault Refusal := .next (s.setPc (zextAddr nnn))

/-- `BNNN` JP V0, NNN: `pc <- zext_16(V[0]) + zext_16(NNN)`, unmasked (R107, decision D28, log entry 2). -/
def execJpV0 (nnn : Addr) (s : State) : Host.Outcome State Fault Refusal :=
  .next (s.setPc (zextByte (s.reg 0#4) + zextAddr nnn))

/-- `2NNN` CALL NNN: pushes its own address and jumps; with `sp = 16` it raises `STACK_OVERFLOW` and falls through
(R106, R217, decision D5, log entry 4). The last case is no state the rules produce (log entry 12). -/
def execCall (nnn : Addr) (s : State) : Host.Outcome State Fault Refusal :=
  if s.sp.toNat < Config.stackDepth then .next ((s.push s.pc).setPc (zextAddr nnn))
  else if s.sp.toNat = Config.stackDepth then .next (s.raise .stackOverflow)
  else .fault (.stackPointerOutOfRange s.sp)

/-- `00EE` RET: `pc` becomes the popped slot plus 2; with `sp = 0` it raises `STACK_UNDERFLOW` and falls through (R105,
R218, decision D6, log entry 4). The last case is no state the rules produce (log entry 12). -/
def execRet (s : State) : Host.Outcome State Fault Refusal :=
  if s.sp = 0 then .next (s.raise .stackUnderflow)
  else if s.sp.toNat ≤ Config.stackDepth then .next (s.pop.setPc (s.top + 2))
  else .fault (.stackPointerOutOfRange s.sp)

/-- `3XNN` SE VX, NN: skip if `V[X] = NN`, all 8 bits (R108). -/
def execSeImm (x : Nibble) (nn : Byte) (s : State) : Host.Outcome State Fault Refusal :=
  .next (s.skipIf (s.reg x == nn))

/-- `4XNN` SNE VX, NN: skip if `V[X] != NN`, all 8 bits (R109). -/
def execSneImm (x : Nibble) (nn : Byte) (s : State) : Host.Outcome State Fault Refusal :=
  .next (s.skipIf (s.reg x != nn))

/-- `5XY0` SE VX, VY: skip if `V[X] = V[Y]`; `ir[3:0]` is ignored (R110, R78). -/
def execSeReg (x y : Nibble) (s : State) : Host.Outcome State Fault Refusal :=
  .next (s.skipIf (s.reg x == s.reg y))

/-- `9XY0` SNE VX, VY: skip if `V[X] != V[Y]`; `ir[3:0]` is ignored (R111, R78). -/
def execSneReg (x y : Nibble) (s : State) : Host.Outcome State Fault Refusal :=
  .next (s.skipIf (s.reg x != s.reg y))

end Sys2Proof.Machine
end

