-- ==== Sys2Proof/Machine/Display.lean ====
section
/-!
DEFINITION. Sys2Proof/Machine/Display.lean: the sprite loop, clear and draw (43_display.md R181 to R183). Both instructions set the redraw flag on every
execution (90_conflicts.md C3) and end with `pc <- pc + 2`.
-/
namespace Sys2Proof.Machine

open Sys2Proof (Byte Nibble)

/-- The cell of column offset `c` and row offset `r` of a sprite placed at `(x0, y0)`, each pixel wrapped on its own:
`64 * ((y0 + r) mod 32) + (x0 + c) mod 64` (R183, decisions D7 and D8, log entries 9 and 11). -/
def spriteCell (x0 y0 : Byte) (r c : Nat) : Fin 2048 :=
  ⟨64 * ((y0.toNat + r) % 32) + (x0.toNat + c) % 64, by omega⟩

/-- Column offset `c` of a sprite row is its bit `7 - c` (R181, decision D9, log entry 10). -/
def spriteBit (row : Byte) (c : Nat) : Bool := row.getLsbD (7 - c)

/-- The display and the collision seen so far. -/
abbrev DrawAcc := Vector Bool 2048 × Bool

/-- One pixel of a draw: a 1 bit flips its cell and collides when the cell was set; a 0 bit does nothing (R183). -/
def drawPixel (x0 y0 row : Byte) (r : Nat) (acc : DrawAcc) (c : Nat) : DrawAcc :=
  if spriteBit row c then
    let k := spriteCell x0 y0 r c
    (acc.1.set k.val (!acc.1[k.val]), acc.2 || acc.1[k.val])
  else acc

/-- The 8 columns of one sprite row, from the left (R183). -/
def drawRow (x0 y0 : Byte) (acc : DrawAcc) (r : Nat) (row : Byte) : DrawAcc :=
  (List.range Config.spriteW).foldl (drawPixel x0 y0 row r) acc

/-- The first rows of the sprite whose bytes are at `I`, `I + 1`, ..., as many as the last argument says, drawn from the
top; no collision has been seen before the first (R183). -/
def drawRows (s : State) (x0 y0 : Byte) : Nat → DrawAcc
  | 0 => (s.gfx, false)
  | r + 1 => drawRow x0 y0 (drawRows s x0 y0 r) r (s.memRead (s.effAddr r))

/-- `00E0` CLS (R182). -/
def execCls (s : State) : Host.Outcome State Fault Refusal := .next ((s.setGfx blankDisplay).setRedraw true).advance

/-- `DXYN` DRW VX, VY, N: `N` rows from memory at `I`, drawn at `(V[X], V[Y])` as they were at the start of the cycle,
then VF = collision (R183). -/
def execDrw (x y n : Nibble) (s : State) : Host.Outcome State Fault Refusal :=
  let d := drawRows s (s.reg x) (s.reg y) n.toNat
  .next (((s.setGfx d.1).setFlag d.2).setRedraw true).advance

end Sys2Proof.Machine
end

