-- ==== Sys2Proof/Machine/Index.lean ====
section
/-!
DEFINITION. Sys2Proof/Machine/Index.lean: the address register and the memory transfers (42_index_and_memory.md R160 to R166).
None writes VF as a flag, and none but the first three changes `I` (R164, decision D16, log entry 16). Every meaning
ends with `pc <- pc + 2`.
-/
namespace Sys2Proof.Machine

open Sys2Proof (Nibble Addr)

/-- `ANNN` LD I, NNN (R160). -/
def execLdI (nnn : Addr) (s : State) : Host.Outcome State Fault Refusal := .next (s.setI (zextAddr nnn)).advance

/-- `FX1E` ADD I, VX: a 16-bit sum, no flag (R161, decision D17, log entry 2). -/
def execAddI (x : Nibble) (s : State) : Host.Outcome State Fault Refusal :=
  .next (s.setI (s.i + zextByte (s.reg x))).advance

/-- `FX29` LD F, VX: the address of the glyph of the low nibble of `V[X]` (R162, decision D14, log entry 14). -/
def execLdF (x : Nibble) (s : State) : Host.Outcome State Fault Refusal := .next (s.setI (glyphAddr (s.reg x))).advance

/-- `FX33` LD B, VX: the three decimal digits of `V[X]` at `I`, `I + 1`, `I + 2` (R163). -/
def execLdB (x : Nibble) (s : State) : Host.Outcome State Fault Refusal :=
  .next (((s.memWrite (s.effAddr 0) (hundreds (s.reg x))).memWrite (s.effAddr 1) (tens (s.reg x))).memWrite
    (s.effAddr 2) (ones (s.reg x))).advance

/-- `FX55` LD [I], VX: `V[0]` .. `V[X]` to memory at `I` (R165). -/
def execLdMemVx (x : Nibble) (s : State) : Host.Outcome State Fault Refusal := .next (s.storeRegs (x.toNat + 1)).advance

/-- `FX65` LD VX, [I]: `V[0]` .. `V[X]` from memory at `I` (R166). -/
def execLdVxMem (x : Nibble) (s : State) : Host.Outcome State Fault Refusal := .next (s.loadRegs (x.toNat + 1)).advance

end Sys2Proof.Machine
end

