-- ==== Sys2Proof/Machine/TimersKeys.lean ====
section
/-!
DEFINITION. Sys2Proof/Machine/TimersKeys.lean: timer access, the skips on keys, the key wait (44_timers_and_keys.md R195 to
R201). The timer tick that follows is the cycle's, not the instruction's (R100).
-/
namespace Sys2Proof.Machine

open Sys2Proof (Nibble)

/-- `FX07` LD VX, DT: the value before this cycle's tick (R195). -/
def execLdVxDt (x : Nibble) (s : State) : Host.Outcome State Fault Refusal := .next (s.setReg x s.dt).advance

/-- `FX15` LD DT, VX (R196). -/
def execLdDtVx (x : Nibble) (s : State) : Host.Outcome State Fault Refusal := .next (s.setDt (s.reg x)).advance

/-- `FX18` LD ST, VX (R197). -/
def execLdStVx (x : Nibble) (s : State) : Host.Outcome State Fault Refusal := .next (s.setSt (s.reg x)).advance

/-- `EX9E` SKP VX: skip if the key of the low nibble of `V[X]` is pressed (R198, decision D15, log entry 14). -/
def execSkp (x : Nibble) (s : State) : Host.Outcome State Fault Refusal :=
  .next (s.skipIf (s.pressed (lowNibble (s.reg x))))

/-- `EXA1` SKNP VX: skip if the key of the low nibble of `V[X]` is not pressed (R199, decision D15, log entry 14). -/
def execSknp (x : Nibble) (s : State) : Host.Outcome State Fault Refusal :=
  .next (s.skipIf (!s.pressed (lowNibble (s.reg x))))

/-- `FX0A` LD VX, K: with no key pressed nothing changes and the cycle suspends (`cycleResult`); else the least pressed
key goes to `V[X]` (R200). -/
def execLdVxK (x : Nibble) (s : State) : Host.Outcome State Fault Refusal :=
  .next (match lowestKey s.key with
    | none => s
    | some k => (s.setReg x (BitVec.ofNat 8 k)).advance)

end Sys2Proof.Machine
end

