-- ==== Sys2Proof/Machine/Step.lean ====
section
/-!
DEFINITION. Sys2Proof/Machine/Step.lean: one cycle (40_cycle_and_control_flow.md R100), and the instruction word put where the
next cycle fetches it.
-/
namespace Sys2Proof.Machine

/-- The source's `runCycle()`: fetch and latch, decode, execute, tick unless suspended, then the host's next inputs
(R100). A word that is no instruction raises the `UNKNOWN_OPCODE` diagnostic and the machine goes on (R216). -/
def step (s : State) : Host.Outcome State Fault Refusal :=
  match decode s.fetch with
  | .error _ => .next s.unknownCycle
  | .ok i => finishCycle (cycleResult i s.beginCycle) (exec i s.beginCycle)

/-- `s` with the instruction whose bits are `w` (numbered as spec/opcode_table.json numbers them) at `pc`, where the next
cycle fetches (R101). -/
def State.withFetchWord (s : State) (nbits w : Nat) : State := s.placeWord (tableWord nbits w)

end Sys2Proof.Machine
end

