-- ==== Sys2Proof/Safety.lean ====
section
/-!
DEFINITION. Sys2Proof/Safety.lean: the terms the claims are stated in. Which parts of the state an operation leaves alone, the
invariant of the machine, the states a run reaches, and which registers and flags an instruction names.
-/
namespace Sys2Proof.Machine

open Sys2Proof (Byte Word Nibble)

/-! ## Frames -/

/-- The parts of the state, one per field. -/
inductive Part where
  | regs | i | pc | stack | sp | dt | st | mem | gfx | redraw | opcode | key | rnd | tone | diag | turn
deriving DecidableEq, Repr

/-- A part reads the same in both states: every register, every slot, every cell and every byte of memory as the model
reads them. -/
def Part.same : Part → State → State → Prop
  | .regs, s, t => ∀ x : Nibble, t.reg x = s.reg x
  | .i, s, t => t.i = s.i
  | .pc, s, t => t.pc = s.pc
  | .stack, s, t => ∀ k : Nibble, t.slot k = s.slot k
  | .sp, s, t => t.sp = s.sp
  | .dt, s, t => t.dt = s.dt
  | .st, s, t => t.st = s.st
  | .mem, s, t => ∀ a : Nat, t.memRead a = s.memRead a
  | .gfx, s, t => ∀ k : Fin 2048, t.cell k = s.cell k
  | .redraw, s, t => t.redraw = s.redraw
  | .opcode, s, t => t.opcode = s.opcode
  | .key, s, t => t.key = s.key
  | .rnd, s, t => t.rnd = s.rnd
  | .tone, s, t => t.tone = s.tone
  | .diag, s, t => t.diag = s.diag
  | .turn, s, t => t.turn = s.turn

/-- From `s` to `t` every part is unchanged, except perhaps those listed. -/
def SameExcept (parts : List Part) (s t : State) : Prop := ∀ p : Part, p ∉ parts → p.same s t

/-- From `s` to `t` every general register is unchanged, except perhaps those listed. -/
def RegsSameExcept (xs : List Nibble) (s t : State) : Prop := ∀ j : Nibble, j ∉ xs → t.reg j = s.reg j

/-! ## The invariant -/

/-- The invariant of the machine: memory is canonical; `0 ≤ SP ≤ 16` (10_state.md R25); a cycle that raised the tone left
`st` at 0 (60_exceptions.md R227); a diagnostic names the word of its cycle and the address execution went on from, by
2 (R215, R222). -/
def State.Inv (s : State) : Prop :=
  s.mem.wf = true ∧ s.sp.toNat ≤ 16 ∧ (s.tone = true → s.st = 0) ∧
    (∀ d : Diag, s.diag = some d → d.ir = s.opcode ∧ s.pc = d.pc + 2)

/-- The machine is awaiting a key: `pc` addresses an `FX0A` instruction and no key is pressed (10_state.md R36). -/
def State.awaitingKey (s : State) : Prop := (∃ x : Nibble, decode s.fetch = .ok (.ldVxK x)) ∧ s.key = 0

/-- The states right after a reset: of the machine at power-on, and of a run at any time (R241). -/
inductive JustReset : State → Prop where
  | start : JustReset State.reset
  | again (s : State) : JustReset s.hostReset

/-- The states a run reaches: reset at any time (R241), the program image loaded between reset and the first step (R242),
any inputs offered and the redraw flag cleared between cycles (R32, R33, R35), and steps. -/
inductive Reachable : State → Prop where
  | reset (s : State) (h : JustReset s) : Reachable s
  | load (s : State) (image : List Byte) (h : JustReset s) (hl : image.length ≤ 3584) : Reachable (s.loadImage image)
  | offer (s : State) (key : BitVec 16) (rnd : Byte) (h : Reachable s) : Reachable (s.offer key rnd)
  | clearRedraw (s : State) (h : Reachable s) : Reachable s.clearRedraw
  | step (s t : State) (h : Reachable s) (hs : step s = .next t) : Reachable t

/-- `n` timer ticks, the tone output inactive before each (60_exceptions.md R226, R227). -/
def ticks : Nat → State → State
  | 0, s => s
  | n + 1, s => ((ticks n s).setTone false).timerTick

/-! ## The display -/

/-- The sprite of `n` rows at `I`, placed at `(x0, y0)`, covers cell `k` with a 1 bit: for some row offset `r` and column
offset `c` the cell is column `(x0 + c) mod 64` of row `(y0 + r) mod 32`, and bit `7 - c` of the byte at `I + r` is 1
(43_display.md R180, R181, R183). -/
def SpriteCovers (s : State) (x0 y0 : Byte) (n : Nat) (k : Fin 2048) : Prop :=
  ∃ r : Nat, r < n ∧ ∃ c : Nat, c < 8 ∧
    k.val = 64 * ((y0.toNat + r) % 32) + (x0.toNat + c) % 64 ∧
    (s.memRead (s.i.toNat + r)).getLsbD (7 - c) = true

/-! ## What an instruction names -/

/-- The instructions that write VF as a side effect (10_state.md R21). -/
def writesFlag : Instr → Bool
  | .addReg _ _ | .subReg _ _ | .shr _ _ | .subnReg _ _ | .shl _ _ | .drw _ _ _ => true
  | .cls | .ret | .jp _ | .call _ | .ldI _ | .jpV0 _ => false
  | .seImm _ _ | .sneImm _ _ | .ldImm _ _ | .addImm _ _ | .rnd _ _ => false
  | .seReg _ _ _ | .sneReg _ _ _ | .ldReg _ _ | .orReg _ _ | .andReg _ _ | .xorReg _ _ => false
  | .skp _ | .sknp _ | .ldVxDt _ | .ldVxK _ | .ldDtVx _ | .ldStVx _ => false
  | .addI _ | .ldF _ | .ldB _ | .ldMemVx _ | .ldVxMem _ => false

/-- Register `j` is a destination the instruction names: `X`, or one of `V[0]` .. `V[X]` for `FX65` (10_state.md R20, "written
by"). -/
def namesDestination : Instr → Nibble → Bool
  | .ldImm x _, j | .addImm x _, j | .rnd x _, j | .ldVxDt x, j | .ldVxK x, j => x == j
  | .ldReg x _, j | .orReg x _, j | .andReg x _, j | .xorReg x _, j | .addReg x _, j | .subReg x _, j => x == j
  | .shr x _, j | .subnReg x _, j | .shl x _, j => x == j
  | .ldVxMem x, j => decide (j.toNat ≤ x.toNat)
  | .cls, _ | .ret, _ | .jp _, _ | .call _, _ | .ldI _, _ | .jpV0 _, _ | .drw _ _ _, _ => false
  | .seImm _ _, _ | .sneImm _ _, _ | .seReg _ _ _, _ | .sneReg _ _ _, _ | .skp _, _ | .sknp _, _ => false
  | .ldDtVx _, _ | .ldStVx _, _ | .addI _, _ | .ldF _, _ | .ldB _, _ | .ldMemVx _, _ => false

/-- The six conditional skips (40_cycle_and_control_flow.md R102 (b)). -/
def isSkip : Instr → Bool
  | .seImm _ _ | .sneImm _ _ | .seReg _ _ _ | .sneReg _ _ _ | .skp _ | .sknp _ => true
  | .cls | .ret | .jp _ | .call _ | .ldI _ | .jpV0 _ | .ldImm _ _ | .addImm _ _ | .rnd _ _ | .drw _ _ _ => false
  | .ldReg _ _ | .orReg _ _ | .andReg _ _ | .xorReg _ _ | .addReg _ _ | .subReg _ _ => false
  | .shr _ _ | .subnReg _ _ | .shl _ _ | .ldVxDt _ | .ldVxK _ | .ldDtVx _ | .ldStVx _ => false
  | .addI _ | .ldF _ | .ldB _ | .ldMemVx _ | .ldVxMem _ => false

end Sys2Proof.Machine
end

