-- ==== Sys2Proof/Certificates/Slice0/Obligations.lean ====
section
/-!
DEFINITION. Sys2Proof/Certificates/Slice0/Obligations.lean: the statements for the provers. Each docstring names the rule of spec/
the statement formalises, or the decision of the spec or log entry it rests on.
-/

open Sys2Proof Sys2Proof.Machine

/-! ## Encoding -/

/-- Ten words the spec writes out stand for their instructions. 0x6A3C, 0xA220, 0xF029, 0x00E0, 0x8124 and 0xD013 are examples
of the source (95_test_vectors.md S3 to S7), 0xFB33 is the case X = 0xB of its example 0xFX33 (S9), and 0x00EE is a row of
its opcode table (R105); 0x2208 is the spec's own example (R106, derived vector T6), and 0xF10A the spec's own instance of
0xFX0A (R200). The match widths of families 0x0, 0x8 and 0xF are decision D13 (log entry 13). -/
def Obligations.WordsOfTheSourceDecode : Prop :=
  decode 0x6A3C#16 = .ok (.ldImm 0xA 0x3C) ∧ decode 0x8124#16 = .ok (.addReg 1 2) ∧
  decode 0xA220#16 = .ok (.ldI 0x220) ∧ decode 0xF029#16 = .ok (.ldF 0) ∧ decode 0x00E0#16 = .ok .cls ∧
  decode 0xD013#16 = .ok (.drw 0 1 3) ∧ decode 0xFB33#16 = .ok (.ldB 0xB) ∧ decode 0x00EE#16 = .ok .ret ∧
  decode 0x2208#16 = .ok (.call 0x208) ∧ decode 0xF10A#16 = .ok (.ldVxK 1)

/-- Decoding the word of an instruction gives the instruction back, for every instruction and every operand, canonical or
not. The match widths and two sub-opcode numbers are the spec's decisions D12 and D13 (log entry 13); that ignored bits
are operands is the model's choice (log entry 18). -/
def Obligations.DecodeInvertsEncode : Prop := ∀ i : Instr, decode (encode i) = .ok i

/-- Encoding the instruction a word decodes to gives the word back: no bit of a recognised word is lost. Rests on D12 and
D13 (log entry 13) and on log entry 18. -/
def Obligations.EncodeInvertsDecode : Prop := ∀ (ir : Word) (i : Instr), decode ir = .ok i → encode i = ir

/-- The two-level decoder and the opcode map agree on every word: the word of an instruction selects that instruction's row
and no other row, and a word is unknown exactly when no row selects it. Rests on D12 and D13 (log entry 13). -/
def Obligations.DecodeAgreesWithTheOpcodeMap : Prop :=
  ∀ ir : Word,
    (∀ i : Instr, decode ir = .ok i →
      (opcodeRow i).selects ir = true ∧ ∀ r ∈ opcodeMap, r.selects ir = true → r = opcodeRow i) ∧
    (decode ir = .error (.unknownOpcode ir) ↔ ∀ r ∈ opcodeMap, r.selects ir = false)

/-- The unknown words are the four classes the spec lists, in the arithmetic of the word. Rests on D13 (log entry 13). -/
def Obligations.UnknownWordsAreTheFourClasses : Prop :=
  ∀ ir : Word, decode ir = .error (.unknownOpcode ir) ↔
    (ir.toNat / 4096 = 0 ∧ ir.toNat ≠ 0x00E0 ∧ ir.toNat ≠ 0x00EE) ∨
    (ir.toNat / 4096 = 8 ∧ ir.toNat % 16 ∈ [0x8, 0x9, 0xA, 0xB, 0xC, 0xD, 0xF]) ∨
    (ir.toNat / 4096 = 0xE ∧ ir.toNat % 256 ∉ [0x9E, 0xA1]) ∨
    (ir.toNat / 4096 = 0xF ∧ ir.toNat % 256 ∉ [0x07, 0x0A, 0x15, 0x18, 0x1E, 0x29, 0x33, 0x55, 0x65])

/-! ## The cycle -/

/-- R100: when the two bytes at `pc` decode to an instruction, a step is its execution after `beginCycle` (fetch and latch)
followed by `endCycle` (the tick unless the cycle suspended, the next inputs), and it stops as the execution stops. -/
def Obligations.StepRunsTheDecodedInstruction : Prop :=
  ∀ (s : State) (i : Instr), decodeBytes (s.memRead s.pc.toNat) (s.memRead (s.pc.toNat + 1)) = .ok i →
    step s = match exec i s.beginCycle with
      | .next t => .next (t.endCycle (cycleResult i s.beginCycle))
      | .fault f => .fault f
      | .refused r => .refused r

/-- The fetch (big-endian, R54; only the low 12 bits of the address, decisions D2 and D3, log entry 2) and the latch (R31); the
pulse outputs start inactive (R34); nothing else changes. -/
def Obligations.CycleBeginsWithTheFetchedWord : Prop :=
  ∀ s : State,
    s.beginCycle.opcode.toNat = 256 * (s.mem.read (s.pc.toNat % 4096)).toNat + (s.mem.read ((s.pc.toNat + 1) % 4096)).toNat ∧
    s.beginCycle.tone = false ∧ s.beginCycle.diag = none ∧ SameExcept [.opcode, .tone, .diag] s s.beginCycle

/-- The tick: each timer counts down by 1 unless it is 0, `tone` is raised when `st` is exactly 1 before its decrement, and
a suspended cycle does not tick (R225, 90_conflicts.md C2). The next inputs are free values (log entry 1): nothing is said
of them. -/
def Obligations.CycleEndsWithTheTimerTick : Prop :=
  ∀ s : State,
    (s.endCycle .done).dt.toNat = s.dt.toNat - 1 ∧ (s.endCycle .done).st.toNat = s.st.toNat - 1 ∧
    ((s.endCycle .done).tone = true ↔ s.tone = true ∨ s.st.toNat = 1) ∧
    SameExcept [.dt, .st, .tone, .key, .rnd, .turn] s (s.endCycle .done) ∧
    SameExcept [.key, .rnd, .turn] s (s.endCycle .suspend)

/-- A cycle whose word is no instruction: the diagnostic with cause 1, the word and its address; `pc + 2`; the timers tick;
nothing else (decisions D4 and D23, log entries 3 and 5; the continuation is INFERRED, U1). -/
def Obligations.UnknownOpcodeIsReportedAndSteppedOver : Prop :=
  ∀ s : State, (∀ i, decode s.fetch ≠ .ok i) →
    ∃ t, step s = .next t ∧ t.diag = some ⟨.unknownOpcode, s.fetch, s.pc⟩ ∧ t.diagValid = true ∧ t.diagCode = 1 ∧
      t.pc = s.pc + 2 ∧ t.opcode = s.fetch ∧ t.dt.toNat = s.dt.toNat - 1 ∧ t.st.toNat = s.st.toNat - 1 ∧
      (t.tone = true ↔ s.st.toNat = 1) ∧
      SameExcept [.pc, .opcode, .dt, .st, .tone, .diag, .key, .rnd, .turn] s t

/-- A cycle in which the machine awaits a key changes only the `opcode` scratch register: no tick, no tone, and the next
fetch reads the same word (decision D31, log entry 5). The next inputs are free values (log entry 1). -/
def Obligations.AwaitingAKeyChangesOnlyTheOpcodeLatch : Prop :=
  ∀ s : State, s.awaitingKey →
    ∃ t, step s = .next t ∧ t.opcode = s.fetch ∧ t.tone = false ∧ t.diag = none ∧ t.fetch = s.fetch ∧
      SameExcept [.opcode, .tone, .diag, .key, .rnd, .turn] s t

/-! ## The invariant, and that the machine runs on -/

/-- Every step keeps the invariant: canonical memory, `0 ≤ SP ≤ 16` (R25), the tone only with `st = 0`, a diagnostic that
names the word and address the machine went on from. The form of memory is the model's (log entry 7), the last clause
rests on D4 to D6 (log entries 3 and 4). -/
def Obligations.StepKeepsTheInvariant : Prop := ∀ s t : State, s.Inv → step s = .next t → t.Inv

/-- The reset state meets the invariant. -/
def Obligations.ResetMeetsTheInvariant : Prop := State.reset.Inv

/-- No state with `0 ≤ SP ≤ 16` stops: the machine has no fault and no terminal state (R219, R251). That it goes on after a
diagnostic is decisions D4 to D6 (log entries 3 and 4). -/
def Obligations.StepAlwaysAnswersANextState : Prop := ∀ s : State, s.sp.toNat ≤ 16 → ∃ t, step s = .next t

/-- Whatever the host does between the cycles of a run, every state reached meets the invariant and has a next one. Rests on
D4 to D6 and D32 (log entries 3, 4, 17). -/
def Obligations.EveryRunGoesOn : Prop := ∀ s : State, Reachable s → s.Inv ∧ ∃ t, step s = .next t

/-- The state after reset (R38, R240): the values the spec gives; `redraw` is decision D19 (log entry 15) and the bytes at
0x050 to 0x09F are the table of decision D21 (log entry 6). Nothing is said of the inputs. -/
def Obligations.ResetLeavesTheStatedValues : Prop :=
  (∀ x : Nibble, State.reset.reg x = 0) ∧ State.reset.i = 0 ∧ State.reset.pc = 0x200 ∧
  (∀ k : Nibble, State.reset.slot k = 0) ∧ State.reset.sp = 0 ∧ State.reset.dt = 0 ∧ State.reset.st = 0 ∧
  (∀ a : Nat, a < 4096 → State.reset.memRead a = if 0x050 ≤ a ∧ a < 0x0A0 then fontTable.getD (a - 0x050) 0 else 0) ∧
  (∀ k : Fin 2048, State.reset.cell k = false) ∧ State.reset.redraw = false ∧ State.reset.opcode = 0 ∧
  State.reset.tone = false ∧ State.reset.diagValid = false

/-! ## Rules over all instructions -/

/-- `I` is written by `ANNN`, `FX1E` and `FX29` only (R22; that `DXYN`, `FX33`, `FX55`, `FX65` leave it is decision D16, log
entry 16). -/
def Obligations.OnlyThreeInstructionsWriteI : Prop :=
  ∀ (s t : State) (i : Instr), exec i s = .next t → t.i ≠ s.i →
    (∃ nnn, i = .ldI nnn) ∨ (∃ x, i = .addI x) ∨ (∃ x, i = .ldF x)

/-- The stack is touched by `2NNN` (a slot and `sp`) and `00EE` (`sp`) only; a return clears no slot (R24; decision D22, log
entry 16). -/
def Obligations.OnlyCallAndReturnTouchTheStack : Prop :=
  ∀ (s t : State) (i : Instr), exec i s = .next t →
    (∀ k, t.slot k ≠ s.slot k → ∃ nnn, i = .call nnn) ∧ (t.sp ≠ s.sp → i = .ret ∨ ∃ nnn, i = .call nnn)

/-- The display is changed by `00E0` and `DXYN` only (R29, R180), and the redraw flag is set by every execution of these two
and changed by nothing else (R30, R182, R183). -/
def Obligations.OnlyClearAndDrawTouchTheDisplay : Prop :=
  ∀ (s t : State) (i : Instr), exec i s = .next t →
    ((∃ k, t.cell k ≠ s.cell k) → i = .cls ∨ ∃ x y n, i = .drw x y n) ∧
    ((i = .cls ∨ ∃ x y n, i = .drw x y n) → t.redraw = true) ∧
    (t.redraw ≠ s.redraw → i = .cls ∨ ∃ x y n, i = .drw x y n)

/-- Memory is changed by `FX33` and `FX55` only (R50). -/
def Obligations.OnlyTheTwoStoresChangeMemory : Prop :=
  ∀ (s t : State) (i : Instr) (a : Nat), exec i s = .next t → t.memRead a ≠ s.memRead a →
    (∃ x, i = .ldB x) ∨ (∃ x, i = .ldMemVx x)

/-- Apart from the tick, `dt` is written by `FX15` only and `st` by `FX18` only; no instruction writes the tone output, the
latch or the inputs (R26, R27, R31, R32, R34). That the model holds the outputs and inputs in the state is its own choice
(log entries 1 and 19). -/
def Obligations.OnlyTheTimerLoadsWriteTheTimers : Prop :=
  ∀ (s t : State) (i : Instr), exec i s = .next t →
    (t.dt ≠ s.dt → ∃ x, i = .ldDtVx x) ∧ (t.st ≠ s.st → ∃ x, i = .ldStVx x) ∧
    t.tone = s.tone ∧ t.opcode = s.opcode ∧ t.key = s.key ∧ t.rnd = s.rnd ∧ t.turn = s.turn

/-- A general register changes only if the instruction names it as a destination, or if it is VF and the instruction is one of
the six that write VF (R20, R21). -/
def Obligations.OnlyDestinationsAndTheFlagChange : Prop :=
  ∀ (s t : State) (i : Instr) (j : Nibble), exec i s = .next t → t.reg j ≠ s.reg j →
    namesDestination i j = true ∨ (j = 0xF#4 ∧ writesFlag i = true)

/-- After each of the six instructions that write VF, VF holds 0 or 1, also when VF is the destination (R21; decision D10, log
entry 5). -/
def Obligations.FlagInstructionsLeaveZeroOrOneInVF : Prop :=
  ∀ (s : State) (i : Instr), writesFlag i = true →
    ∃ t, exec i s = .next t ∧ (t.reg 0xF#4 = 0 ∨ t.reg 0xF#4 = 1)

/-- How every instruction leaves `pc` (R23, R102): `pc + 2`, a skip `pc + 4`, a jump or call its target, a return the popped
slot plus 2, a key wait `pc` itself. That a refused call and a refused return leave `pc + 2` is decisions D5 and D6 (log
entry 4); the wrap at 65536 is D3 (log entry 2). -/
def Obligations.PcAfterEveryInstruction : Prop :=
  ∀ (s t : State) (i : Instr), exec i s = .next t →
    t.pc = s.pc + 2 ∨ (isSkip i = true ∧ t.pc = s.pc + 4) ∨
    (∃ nnn, (i = .jp nnn ∨ i = .call nnn) ∧ t.pc.toNat = nnn.toNat) ∨
    (∃ nnn, i = .jpV0 nnn ∧ t.pc.toNat = (s.reg 0#4).toNat + nnn.toNat) ∨
    (i = .ret ∧ t.pc = s.slot ((s.sp - 1).setWidth 4) + 2) ∨
    (∃ x, i = .ldVxK x ∧ s.key = 0 ∧ t.pc = s.pc)

/-! ## Jumps, call and return -/

/-- R104: the words of mask 0xF000 and match 0x1000 are `JP NNN` with `NNN = ir[11:0]`; it sets `pc` to `NNN`, changes
nothing else, and its result is `Done`. -/
def Obligations.JumpGoesToItsTarget : Prop :=
  (∀ (ir : Word) (nnn : Addr), decode ir = .ok (.jp nnn) ↔ ir &&& 0xF000#16 = 0x1000#16 ∧ fieldNNN ir = nnn) ∧
  (∀ (s : State) (nnn : Addr), cycleResult (.jp nnn) s = .done ∧
    ∃ t, exec (.jp nnn) s = .next t ∧ t.pc.toNat = nnn.toNat ∧ SameExcept [.pc] s t)

/-- `JP V0, NNN` sets `pc` to the unmasked sum `V[0] + NNN` and changes nothing else (decision D28, log entry 2). -/
def Obligations.ComputedJumpAddsV0 : Prop :=
  ∀ (s : State) (nnn : Addr), ∃ t, exec (.jpV0 nnn) s = .next t ∧ t.pc.toNat = (s.reg 0#4).toNat + nnn.toNat ∧
    SameExcept [.pc] s t

/-- `CALL NNN` with a free slot: `stack[sp]` is the call's own address, `sp` is one more, `pc` is `NNN`, nothing else changes
(R24, R25). -/
def Obligations.CallPushesItsOwnAddress : Prop :=
  ∀ (s : State) (nnn : Addr), s.sp.toNat < 16 →
    ∃ t, exec (.call nnn) s = .next t ∧ t.pc.toNat = nnn.toNat ∧ t.sp.toNat = s.sp.toNat + 1 ∧
      (∀ k : Nibble, t.slot k = if k.toNat = s.sp.toNat then s.pc else s.slot k) ∧
      SameExcept [.pc, .sp, .stack] s t

/-- `RET` with a slot in use: `sp` is one less, `pc` is the popped slot plus 2, the slot keeps its value, nothing else changes
(R24, R25, R102 (c); decision D22, log entry 16; the sum wraps by D3, log entry 2). -/
def Obligations.ReturnGoesPastTheCall : Prop :=
  ∀ s : State, 0 < s.sp.toNat → s.sp.toNat ≤ 16 →
    ∃ t, exec .ret s = .next t ∧ t.sp.toNat = s.sp.toNat - 1 ∧
      (∀ k : Nibble, k.toNat = s.sp.toNat - 1 → t.pc = s.slot k + 2) ∧ SameExcept [.pc, .sp] s t

/-- A call and, later, a return that finds the stack as the call left it resume after the call with `sp` as before the call
(90_conflicts.md C7). -/
def Obligations.CallThenReturnResumesAfterTheCall : Prop :=
  ∀ (s : State) (nnn : Addr), s.sp.toNat < 16 →
    ∃ t, exec (.call nnn) s = .next t ∧
      ∀ u : State, u.sp = t.sp → (∀ k, u.slot k = t.slot k) →
        ∃ w, exec .ret u = .next w ∧ w.pc = s.pc + 2 ∧ w.sp = s.sp

/-- The two stack faults: a call at `sp = 16` and a return at `sp = 0` raise their diagnostic, leave `pc + 2` and change
nothing else (decisions D5 and D6, log entry 4; the continuation is INFERRED, U2). -/
def Obligations.StackFaultsAreReportedAndSteppedOver : Prop :=
  (∀ (s : State) (nnn : Addr), s.sp.toNat = 16 →
    ∃ t, exec (.call nnn) s = .next t ∧ t.diag = some ⟨.stackOverflow, s.opcode, s.pc⟩ ∧ t.diagCode = 2 ∧
      t.pc = s.pc + 2 ∧ SameExcept [.pc, .diag] s t) ∧
  (∀ s : State, s.sp.toNat = 0 →
    ∃ t, exec .ret s = .next t ∧ t.diag = some ⟨.stackUnderflow, s.opcode, s.pc⟩ ∧ t.diagCode = 3 ∧
      t.pc = s.pc + 2 ∧ SameExcept [.pc, .diag] s t)

/-- The model's own stop (log entry 12): in a state whose `sp` is above 16, which no rule produces, a call and a return
fault. -/
def Obligations.StackPointerAboveSixteenStops : Prop :=
  ∀ (s : State) (nnn : Addr), 16 < s.sp.toNat →
    exec (.call nnn) s = .fault (.stackPointerOutOfRange s.sp) ∧ exec .ret s = .fault (.stackPointerOutOfRange s.sp)

/-! ## Skips on registers -/

/-- R108, R109: `SE VX, NN` and `SNE VX, NN`, their words, that they skip on the full 8-bit comparison, change nothing but
`pc`, and have the result `Done`. -/
def Obligations.ImmediateSkipsCompareAllEightBits : Prop :=
  (∀ (ir : Word) (x : Nibble) (nn : Byte),
    (decode ir = .ok (.seImm x nn) ↔ ir &&& 0xF000#16 = 0x3000#16 ∧ fieldX ir = x ∧ fieldNN ir = nn) ∧
    (decode ir = .ok (.sneImm x nn) ↔ ir &&& 0xF000#16 = 0x4000#16 ∧ fieldX ir = x ∧ fieldNN ir = nn)) ∧
  ∀ (s : State) (x : Nibble) (nn : Byte),
    cycleResult (.seImm x nn) s = .done ∧ cycleResult (.sneImm x nn) s = .done ∧
    (∃ t, exec (.seImm x nn) s = .next t ∧ (t.pc = if s.reg x = nn then s.pc + 4 else s.pc + 2) ∧ SameExcept [.pc] s t) ∧
    (∃ t, exec (.sneImm x nn) s = .next t ∧ (t.pc = if s.reg x = nn then s.pc + 2 else s.pc + 4) ∧ SameExcept [.pc] s t)

/-- R110, R111: `SE VX, VY` and `SNE VX, VY` skip on the two registers, whatever `ir[3:0]` is, and change nothing but `pc`. -/
def Obligations.RegisterSkipsCompareTwoRegisters : Prop :=
  ∀ (s : State) (x y n : Nibble),
    (∃ t, exec (.seReg x y n) s = .next t ∧ (t.pc = if s.reg x = s.reg y then s.pc + 4 else s.pc + 2) ∧
      SameExcept [.pc] s t) ∧
    (∃ t, exec (.sneReg x y n) s = .next t ∧ (t.pc = if s.reg x = s.reg y then s.pc + 2 else s.pc + 4) ∧
      SameExcept [.pc] s t)

/-! ## Loads, arithmetic, logic -/

/-- R133, R134: `LD VX, NN` and `ADD VX, NN`, their words, that they write `V[X]` only, with the sum modulo 256 and no flag,
and that their result is `Done`. -/
def Obligations.ImmediateLoadAndAdd : Prop :=
  (∀ (ir : Word) (x : Nibble) (nn : Byte),
    (decode ir = .ok (.ldImm x nn) ↔ ir &&& 0xF000#16 = 0x6000#16 ∧ fieldX ir = x ∧ fieldNN ir = nn) ∧
    (decode ir = .ok (.addImm x nn) ↔ ir &&& 0xF000#16 = 0x7000#16 ∧ fieldX ir = x ∧ fieldNN ir = nn)) ∧
  ∀ (s : State) (x : Nibble) (nn : Byte),
    cycleResult (.ldImm x nn) s = .done ∧ cycleResult (.addImm x nn) s = .done ∧
    (∃ t, exec (.ldImm x nn) s = .next t ∧ t.reg x = nn ∧ RegsSameExcept [x] s t ∧ t.pc = s.pc + 2 ∧
      SameExcept [.regs, .pc] s t) ∧
    (∃ t, exec (.addImm x nn) s = .next t ∧ (t.reg x).toNat = ((s.reg x).toNat + nn.toNat) % 256 ∧
      RegsSameExcept [x] s t ∧ t.pc = s.pc + 2 ∧ SameExcept [.regs, .pc] s t)

/-- R135 to R138: copy, OR, AND, XOR, bit by bit, into `V[X]` only; VF is not written unless it is `V[X]`. -/
def Obligations.CopyAndLogicWriteOneRegister : Prop :=
  ∀ (s : State) (x y : Nibble),
    (∃ t, exec (.ldReg x y) s = .next t ∧ t.reg x = s.reg y ∧ RegsSameExcept [x] s t ∧ t.pc = s.pc + 2 ∧
      SameExcept [.regs, .pc] s t) ∧
    (∃ t, exec (.orReg x y) s = .next t ∧
      (∀ b, (t.reg x).getLsbD b = ((s.reg x).getLsbD b || (s.reg y).getLsbD b)) ∧ RegsSameExcept [x] s t ∧
      t.pc = s.pc + 2 ∧ SameExcept [.regs, .pc] s t) ∧
    (∃ t, exec (.andReg x y) s = .next t ∧
      (∀ b, (t.reg x).getLsbD b = ((s.reg x).getLsbD b && (s.reg y).getLsbD b)) ∧ RegsSameExcept [x] s t ∧
      t.pc = s.pc + 2 ∧ SameExcept [.regs, .pc] s t) ∧
    (∃ t, exec (.xorReg x y) s = .next t ∧
      (∀ b, (t.reg x).getLsbD b = ((s.reg x).getLsbD b ^^ (s.reg y).getLsbD b)) ∧ RegsSameExcept [x] s t ∧
      t.pc = s.pc + 2 ∧ SameExcept [.regs, .pc] s t)

/-- `ADD`, `SUB`, `SUBN` (R130, R132): the result modulo 256 in `V[X]`, the carry or no-borrow flag in VF, nothing else. When
`X` is 0xF the flag is what VF holds (decision D10, log entry 5). -/
def Obligations.AddAndSubtractWithTheirFlags : Prop :=
  ∀ (s : State) (x y : Nibble),
    (∃ t, exec (.addReg x y) s = .next t ∧
      (x ≠ 0xF#4 → (t.reg x).toNat = ((s.reg x).toNat + (s.reg y).toNat) % 256) ∧
      (t.reg 0xF#4 = if 255 < (s.reg x).toNat + (s.reg y).toNat then 1 else 0) ∧ RegsSameExcept [x, 0xF#4] s t ∧
      t.pc = s.pc + 2 ∧ SameExcept [.regs, .pc] s t) ∧
    (∃ t, exec (.subReg x y) s = .next t ∧
      (x ≠ 0xF#4 → (t.reg x).toNat = ((s.reg x).toNat + 256 - (s.reg y).toNat) % 256) ∧
      (t.reg 0xF#4 = if (s.reg y).toNat ≤ (s.reg x).toNat then 1 else 0) ∧ RegsSameExcept [x, 0xF#4] s t ∧
      t.pc = s.pc + 2 ∧ SameExcept [.regs, .pc] s t) ∧
    (∃ t, exec (.subnReg x y) s = .next t ∧
      (x ≠ 0xF#4 → (t.reg x).toNat = ((s.reg y).toNat + 256 - (s.reg x).toNat) % 256) ∧
      (t.reg 0xF#4 = if (s.reg x).toNat ≤ (s.reg y).toNat then 1 else 0) ∧ RegsSameExcept [x, 0xF#4] s t ∧
      t.pc = s.pc + 2 ∧ SameExcept [.regs, .pc] s t)

/-- `SHR` and `SHL` shift `V[X]` in place by one and put the bit shifted out in VF, whatever `Y` is (decision D11, log entry
13); when `X` is 0xF the flag is what VF holds (decision D10, log entry 5). -/
def Obligations.ShiftsPutTheBitOutInVF : Prop :=
  ∀ (s : State) (x y : Nibble),
    (∃ t, exec (.shr x y) s = .next t ∧ (x ≠ 0xF#4 → (t.reg x).toNat = (s.reg x).toNat / 2) ∧
      (t.reg 0xF#4).toNat = (s.reg x).toNat % 2 ∧ RegsSameExcept [x, 0xF#4] s t ∧ t.pc = s.pc + 2 ∧
      SameExcept [.regs, .pc] s t) ∧
    (∃ t, exec (.shl x y) s = .next t ∧ (x ≠ 0xF#4 → (t.reg x).toNat = 2 * (s.reg x).toNat % 256) ∧
      (t.reg 0xF#4).toNat = (s.reg x).toNat / 128 ∧ RegsSameExcept [x, 0xF#4] s t ∧ t.pc = s.pc + 2 ∧
      SameExcept [.regs, .pc] s t)

/-- `RND VX, NN`: bit by bit the random byte of the cycle AND `NN`, for every random byte (decision D20, log entry 1). -/
def Obligations.RandomByteIsMasked : Prop :=
  ∀ (s : State) (x : Nibble) (nn : Byte),
    ∃ t, exec (.rnd x nn) s = .next t ∧ (∀ b, (t.reg x).getLsbD b = (s.rnd.getLsbD b && nn.getLsbD b)) ∧
      RegsSameExcept [x] s t ∧ t.pc = s.pc + 2 ∧ SameExcept [.regs, .pc] s t

/-! ## The address register and memory -/

/-- R160: `LD I, NNN`, its words, that it writes `I` only, and that its result is `Done`. -/
def Obligations.LoadAddressRegister : Prop :=
  (∀ (ir : Word) (nnn : Addr), decode ir = .ok (.ldI nnn) ↔ ir &&& 0xF000#16 = 0xA000#16 ∧ fieldNNN ir = nnn) ∧
  ∀ (s : State) (nnn : Addr), cycleResult (.ldI nnn) s = .done ∧
    ∃ t, exec (.ldI nnn) s = .next t ∧ t.i.toNat = nnn.toNat ∧ t.pc = s.pc + 2 ∧ SameExcept [.i, .pc] s t

/-- `ADD I, VX` is a 16-bit sum without a flag (decision D17, log entry 2); `LD F, VX` is the glyph address of the low nibble
(decision D14, log entry 14). Both write `I` only. -/
def Obligations.AddressRegisterArithmetic : Prop :=
  ∀ (s : State) (x : Nibble),
    (∃ t, exec (.addI x) s = .next t ∧ t.i.toNat = (s.i.toNat + (s.reg x).toNat) % 65536 ∧ t.pc = s.pc + 2 ∧
      SameExcept [.i, .pc] s t) ∧
    (∃ t, exec (.ldF x) s = .next t ∧ t.i.toNat = 0x050 + 5 * ((s.reg x).toNat % 16) ∧ t.pc = s.pc + 2 ∧
      SameExcept [.i, .pc] s t)

/-- `LD B, VX`: the three decimal digits at `I`, `I + 1`, `I + 2` modulo 4096 (decisions D2 and D18, log entries 2 and 8), every
other byte as before, `I` kept (decision D16, log entry 16). The premise is the memory form that every step keeps. -/
def Obligations.DecimalDigitsAreStored : Prop :=
  ∀ (s : State) (x : Nibble), s.mem.wf = true →
    ∃ t, exec (.ldB x) s = .next t ∧
      (t.memRead s.i.toNat).toNat = (s.reg x).toNat / 100 ∧
      (t.memRead (s.i.toNat + 1)).toNat = (s.reg x).toNat / 10 % 10 ∧
      (t.memRead (s.i.toNat + 2)).toNat = (s.reg x).toNat % 10 ∧
      (∀ a : Nat, (∀ k, k < 3 → a % 4096 ≠ s.effAddr k) → t.memRead a = s.memRead a) ∧
      t.pc = s.pc + 2 ∧ SameExcept [.mem, .pc] s t

/-- `LD [I], VX`: register `k` at `I + k` modulo 4096 for `k` from 0 to `X` (decisions D2 and D18, log entries 2 and 8), every
other byte as before, `I` kept (decision D16, log entry 16). The premise is the memory form that every step keeps. -/
def Obligations.RegistersAreStored : Prop :=
  ∀ (s : State) (x : Nibble), s.mem.wf = true →
    ∃ t, exec (.ldMemVx x) s = .next t ∧
      (∀ k : Nibble, k.toNat ≤ x.toNat → t.memRead (s.i.toNat + k.toNat) = s.reg k) ∧
      (∀ a : Nat, (∀ k, k ≤ x.toNat → a % 4096 ≠ s.effAddr k) → t.memRead a = s.memRead a) ∧
      t.pc = s.pc + 2 ∧ SameExcept [.mem, .pc] s t

/-- `LD VX, [I]`: registers 0 to `X` from `I` on modulo 4096 (decision D2, log entry 2), those above `X` as before, memory and
`I` kept (decision D16, log entry 16). -/
def Obligations.RegistersAreLoaded : Prop :=
  ∀ (s : State) (x : Nibble),
    ∃ t, exec (.ldVxMem x) s = .next t ∧
      (∀ k : Nibble, t.reg k = if k.toNat ≤ x.toNat then s.mem.read ((s.i.toNat + k.toNat) % 4096) else s.reg k) ∧
      t.pc = s.pc + 2 ∧ SameExcept [.regs, .pc] s t

/-- Registers stored by `FX55` come back with `FX65` from any later state with the same memory and `I`. Rests on decisions D2,
D16 and D18 (log entries 2, 8, 16). -/
def Obligations.StoredRegistersComeBack : Prop :=
  ∀ (s : State) (x : Nibble), s.mem.wf = true →
    ∃ t, exec (.ldMemVx x) s = .next t ∧
      ∀ u : State, u.mem = t.mem → u.i = t.i →
        ∃ w, exec (.ldVxMem x) u = .next w ∧ ∀ k : Nibble, k.toNat ≤ x.toNat → w.reg k = s.reg k

/-- A store over the next instruction is what the next cycle fetches (R59; the addresses wrap by D2 and D3, log entry 2). -/
def Obligations.StoredWordIsFetchedNext : Prop :=
  ∀ (s : State) (x : Nibble), s.mem.wf = true → 1 ≤ x.toNat → s.i.toNat % 4096 = (s.pc.toNat + 2) % 4096 →
    ∃ t, exec (.ldMemVx x) s = .next t ∧ t.fetch.toNat = 256 * (s.reg 0#4).toNat + (s.reg 1#4).toNat

/-- The model's own memory form (log entry 7) is one list per memory: canonical lists that read the same at every address are
equal. -/
def Obligations.CanonicalMemoriesThatReadAlikeAreEqual : Prop :=
  ∀ m m' : Memory, m.wf = true → m'.wf = true → (∀ a : Nat, a < 4096 → m.read a = m'.read a) → m = m'

/-! ## The display -/

/-- R182: `CLS` is the word 0x00E0; it clears every cell and sets `redraw`; VF and everything else is kept; its result is
`Done`. -/
def Obligations.ClearClearsEveryCell : Prop :=
  (∀ ir : Word, decode ir = .ok .cls ↔ ir = 0x00E0#16) ∧
  ∀ s : State, cycleResult .cls s = .done ∧
    ∃ t, exec .cls s = .next t ∧ (∀ k : Fin 2048, t.cell k = false) ∧ t.redraw = true ∧ t.pc = s.pc + 2 ∧
      SameExcept [.gfx, .redraw, .pc] s t

/-- `DRW VX, VY, N` flips exactly the cells the sprite covers with a 1 bit; VF is 1 exactly when a covered cell was set; the
coordinates are the registers before VF is written; `redraw` is set; nothing else changes. Rests on decisions D7 to D10, D2
and D30 (log entries 2, 5, 9, 10, 11, 16). -/
def Obligations.DrawFlipsExactlyTheCoveredCells : Prop :=
  ∀ (s : State) (x y n : Nibble),
    ∃ t, exec (.drw x y n) s = .next t ∧
      (∀ k : Fin 2048, (SpriteCovers s (s.reg x) (s.reg y) n.toNat k → t.cell k = !s.cell k) ∧
        (¬ SpriteCovers s (s.reg x) (s.reg y) n.toNat k → t.cell k = s.cell k)) ∧
      ((∃ k, SpriteCovers s (s.reg x) (s.reg y) n.toNat k ∧ s.cell k = true) → t.reg 0xF#4 = 1) ∧
      ((¬ ∃ k, SpriteCovers s (s.reg x) (s.reg y) n.toNat k ∧ s.cell k = true) → t.reg 0xF#4 = 0) ∧
      RegsSameExcept [0xF#4] s t ∧ t.redraw = true ∧ t.pc = s.pc + 2 ∧ SameExcept [.gfx, .regs, .redraw, .pc] s t

/-- Drawing the same sprite twice restores the display, and the second draw collides exactly when the first one lit a cell
(R184 (b), (d), which the spec marks as derived). -/
def Obligations.DrawingTwiceRestoresTheDisplay : Prop :=
  ∀ (s : State) (x y n : Nibble), x ≠ 0xF#4 → y ≠ 0xF#4 →
    ∃ t u, exec (.drw x y n) s = .next t ∧ exec (.drw x y n) t = .next u ∧ (∀ k, u.cell k = s.cell k) ∧
      (u.reg 0xF#4 = 1 ↔ ∃ k, s.cell k = false ∧ t.cell k = true)

/-! ## Timers and keys -/

/-- The three timer instructions: what each copies, before the tick of the cycle, and that it changes nothing else. -/
def Obligations.TimerInstructionsCopyOneByte : Prop :=
  ∀ (s : State) (x : Nibble),
    (∃ t, exec (.ldVxDt x) s = .next t ∧ t.reg x = s.dt ∧ RegsSameExcept [x] s t ∧ t.pc = s.pc + 2 ∧
      SameExcept [.regs, .pc] s t) ∧
    (∃ t, exec (.ldDtVx x) s = .next t ∧ t.dt = s.reg x ∧ t.pc = s.pc + 2 ∧ SameExcept [.dt, .pc] s t) ∧
    (∃ t, exec (.ldStVx x) s = .next t ∧ t.st = s.reg x ∧ t.pc = s.pc + 2 ∧ SameExcept [.st, .pc] s t)

/-- The same three over a whole cycle, tick included (R195 to R197, whose consequences the spec marks as derived): `FX07` reads
`dt` before the tick, a value loaded by `FX15` or `FX18` is ticked in its own cycle, and `FX18` with 1 raises the tone at
once. -/
def Obligations.TimerLoadsTickInTheirOwnCycle : Prop :=
  ∀ (s : State) (x : Nibble),
    (decode s.fetch = .ok (.ldVxDt x) →
      ∃ t, step s = .next t ∧ t.reg x = s.dt ∧ t.dt.toNat = s.dt.toNat - 1 ∧ t.pc = s.pc + 2) ∧
    (decode s.fetch = .ok (.ldDtVx x) →
      ∃ t, step s = .next t ∧ t.dt.toNat = (s.reg x).toNat - 1 ∧ t.st.toNat = s.st.toNat - 1 ∧ t.pc = s.pc + 2) ∧
    (decode s.fetch = .ok (.ldStVx x) →
      ∃ t, step s = .next t ∧ t.st.toNat = (s.reg x).toNat - 1 ∧ (t.tone = true ↔ (s.reg x).toNat = 1) ∧
        t.dt.toNat = s.dt.toNat - 1 ∧ t.pc = s.pc + 2)

/-- In every cycle that does not await a key both timers count down, unless the word is the load of that timer, and the tone
is raised exactly when `st` passes through 1 (R225; that diagnostic cycles tick is decision D23, log entry 5). -/
def Obligations.TimersTickInEveryCycleThatDoesNotSuspend : Prop :=
  ∀ s t : State, step s = .next t → ¬ s.awaitingKey →
    ((∀ x, decode s.fetch ≠ .ok (.ldDtVx x)) → t.dt.toNat = s.dt.toNat - 1) ∧
    ((∀ x, decode s.fetch ≠ .ok (.ldStVx x)) → t.st.toNat = s.st.toNat - 1 ∧ (t.tone = true ↔ s.st.toNat = 1))

/-- `n` ticks take `n` from each timer, down to 0 and never below (R226, marked derived), and change nothing else but the tone
output. -/
def Obligations.TimersCountTicks : Prop :=
  ∀ (s : State) (n : Nat), (ticks n s).dt.toNat = s.dt.toNat - n ∧ (ticks n s).st.toNat = s.st.toNat - n ∧
    SameExcept [.dt, .st, .tone] s (ticks n s)

/-- One loading of `st` gives one tone: of the ticks that follow, exactly the one numbered by the value of `st` raises it, and
with `st = 0` none does (R227). -/
def Obligations.ToneSoundsOnceAtTheEnd : Prop :=
  ∀ (s : State) (n : Nat), (ticks (n + 1) s).tone = true ↔ s.st.toNat = n + 1

/-- `SKP` and `SKNP` skip on the key of the low nibble of `V[X]` (decision D15, log entry 14) and change nothing but `pc`. -/
def Obligations.KeySkipsTestOneKey : Prop :=
  ∀ (s : State) (x : Nibble),
    (∃ t, exec (.skp x) s = .next t ∧
      (t.pc = if s.key.getLsbD ((s.reg x).toNat % 16) = true then s.pc + 4 else s.pc + 2) ∧ SameExcept [.pc] s t) ∧
    (∃ t, exec (.sknp x) s = .next t ∧
      (t.pc = if s.key.getLsbD ((s.reg x).toNat % 16) = true then s.pc + 2 else s.pc + 4) ∧ SameExcept [.pc] s t)

/-- R200: the words of mask 0xF0FF and match 0xF00A are `LD VX, K`; with no key pressed it suspends: nothing changes and the
cycle does not tick; with a key pressed the least pressed one goes to `V[X]`, `pc` advances and the tick follows. -/
def Obligations.KeyWaitTakesTheLowestKey : Prop :=
  (∀ (ir : Word) (x : Nibble), decode ir = .ok (.ldVxK x) ↔ ir &&& 0xF0FF#16 = 0xF00A#16 ∧ fieldX ir = x) ∧
  ∀ (s : State) (x : Nibble),
    (s.key = 0 → ∃ t, exec (.ldVxK x) s = .next t ∧ SameExcept [] s t ∧ cycleResult (.ldVxK x) s = .suspend ∧
      (t.endCycle (cycleResult (.ldVxK x) s)).dt = s.dt ∧ (t.endCycle (cycleResult (.ldVxK x) s)).st = s.st) ∧
    (s.key ≠ 0 → ∃ t, exec (.ldVxK x) s = .next t ∧
      s.key.getLsbD (t.reg x).toNat = true ∧ (∀ k, k < (t.reg x).toNat → s.key.getLsbD k = false) ∧
      RegsSameExcept [x] s t ∧ t.pc = s.pc + 2 ∧ SameExcept [.regs, .pc] s t ∧
      cycleResult (.ldVxK x) s = .done ∧
      (t.endCycle (cycleResult (.ldVxK x) s)).dt.toNat = s.dt.toNat - 1 ∧
      (t.endCycle (cycleResult (.ldVxK x) s)).st.toNat = s.st.toNat - 1)

/-! ## The host's load -/

/-- R63: byte `j` of a program image of at most 3584 bytes goes to address 0x200 + `j`; every other byte, and everything that is
not memory, is as before; loaded right after reset, the bytes above the image are 0. The premise is the memory form that
every step keeps. -/
def Obligations.ProgramImageIsLoadedAtItsBase : Prop :=
  ∀ (s : State) (image : List Byte), s.mem.wf = true → image.length ≤ 3584 →
    (∀ j : Nat, j < image.length → (s.loadImage image).memRead (0x200 + j) = image.getD j 0) ∧
    (∀ a : Nat, a < 4096 → a < 0x200 ∨ 0x200 + image.length ≤ a → (s.loadImage image).memRead a = s.memRead a) ∧
    SameExcept [.mem] s (s.loadImage image) ∧
    (s = State.reset → ∀ a : Nat, 0x200 + image.length ≤ a → a < 4096 → (s.loadImage image).memRead a = 0)
end

