-- ==== Sys2Proof/Laws/State.lean ====
section
/-!
SUPPORT. Sys2Proof/Laws/State.lean: what each update of the state does to each field and to each accessor, one lemma each, so
that no proof unfolds a record update.
-/
namespace Sys2Proof.Machine

open Sys2Proof (Byte Word Nibble)

/-! ### setReg -/
@[simp] theorem State.setReg_v (s : State) (x : Nibble) (b : Byte) : (s.setReg x b).v = s.v.set x.toNat b := rfl
@[simp] theorem State.setReg_i (s : State) (x : Nibble) (b : Byte) : (s.setReg x b).i = s.i := rfl
@[simp] theorem State.setReg_pc (s : State) (x : Nibble) (b : Byte) : (s.setReg x b).pc = s.pc := rfl
@[simp] theorem State.setReg_stack (s : State) (x : Nibble) (b : Byte) : (s.setReg x b).stack = s.stack := rfl
@[simp] theorem State.setReg_sp (s : State) (x : Nibble) (b : Byte) : (s.setReg x b).sp = s.sp := rfl
@[simp] theorem State.setReg_dt (s : State) (x : Nibble) (b : Byte) : (s.setReg x b).dt = s.dt := rfl
@[simp] theorem State.setReg_st (s : State) (x : Nibble) (b : Byte) : (s.setReg x b).st = s.st := rfl
@[simp] theorem State.setReg_mem (s : State) (x : Nibble) (b : Byte) : (s.setReg x b).mem = s.mem := rfl
@[simp] theorem State.setReg_gfx (s : State) (x : Nibble) (b : Byte) : (s.setReg x b).gfx = s.gfx := rfl
@[simp] theorem State.setReg_redraw (s : State) (x : Nibble) (b : Byte) : (s.setReg x b).redraw = s.redraw := rfl
@[simp] theorem State.setReg_opcode (s : State) (x : Nibble) (b : Byte) : (s.setReg x b).opcode = s.opcode := rfl
@[simp] theorem State.setReg_key (s : State) (x : Nibble) (b : Byte) : (s.setReg x b).key = s.key := rfl
@[simp] theorem State.setReg_rnd (s : State) (x : Nibble) (b : Byte) : (s.setReg x b).rnd = s.rnd := rfl
@[simp] theorem State.setReg_tone (s : State) (x : Nibble) (b : Byte) : (s.setReg x b).tone = s.tone := rfl
@[simp] theorem State.setReg_diag (s : State) (x : Nibble) (b : Byte) : (s.setReg x b).diag = s.diag := rfl
@[simp] theorem State.setReg_turn (s : State) (x : Nibble) (b : Byte) : (s.setReg x b).turn = s.turn := rfl
@[simp] theorem State.setReg_slot (s : State) (x : Nibble) (b : Byte) (j : Nibble) : (s.setReg x b).slot j = s.slot j := rfl
@[simp] theorem State.setReg_cell (s : State) (x : Nibble) (b : Byte) (c : Fin 2048) : (s.setReg x b).cell c = s.cell c := rfl
@[simp] theorem State.setReg_memRead (s : State) (x : Nibble) (b : Byte) (a : Nat) : (s.setReg x b).memRead a = s.memRead a := rfl
@[simp] theorem State.setReg_effAddr (s : State) (x : Nibble) (b : Byte) (a : Nat) : (s.setReg x b).effAddr a = s.effAddr a := rfl
@[simp] theorem State.setReg_fetch (s : State) (x : Nibble) (b : Byte) : (s.setReg x b).fetch = s.fetch := rfl

/-! ### setI -/
@[simp] theorem State.setI_v (s : State) (w : Word) : (s.setI w).v = s.v := rfl
@[simp] theorem State.setI_i (s : State) (w : Word) : (s.setI w).i = w := rfl
@[simp] theorem State.setI_pc (s : State) (w : Word) : (s.setI w).pc = s.pc := rfl
@[simp] theorem State.setI_stack (s : State) (w : Word) : (s.setI w).stack = s.stack := rfl
@[simp] theorem State.setI_sp (s : State) (w : Word) : (s.setI w).sp = s.sp := rfl
@[simp] theorem State.setI_dt (s : State) (w : Word) : (s.setI w).dt = s.dt := rfl
@[simp] theorem State.setI_st (s : State) (w : Word) : (s.setI w).st = s.st := rfl
@[simp] theorem State.setI_mem (s : State) (w : Word) : (s.setI w).mem = s.mem := rfl
@[simp] theorem State.setI_gfx (s : State) (w : Word) : (s.setI w).gfx = s.gfx := rfl
@[simp] theorem State.setI_redraw (s : State) (w : Word) : (s.setI w).redraw = s.redraw := rfl
@[simp] theorem State.setI_opcode (s : State) (w : Word) : (s.setI w).opcode = s.opcode := rfl
@[simp] theorem State.setI_key (s : State) (w : Word) : (s.setI w).key = s.key := rfl
@[simp] theorem State.setI_rnd (s : State) (w : Word) : (s.setI w).rnd = s.rnd := rfl
@[simp] theorem State.setI_tone (s : State) (w : Word) : (s.setI w).tone = s.tone := rfl
@[simp] theorem State.setI_diag (s : State) (w : Word) : (s.setI w).diag = s.diag := rfl
@[simp] theorem State.setI_turn (s : State) (w : Word) : (s.setI w).turn = s.turn := rfl
@[simp] theorem State.setI_reg (s : State) (w : Word) (y : Nibble) : (s.setI w).reg y = s.reg y := rfl
@[simp] theorem State.setI_slot (s : State) (w : Word) (j : Nibble) : (s.setI w).slot j = s.slot j := rfl
@[simp] theorem State.setI_cell (s : State) (w : Word) (c : Fin 2048) : (s.setI w).cell c = s.cell c := rfl
@[simp] theorem State.setI_memRead (s : State) (w : Word) (a : Nat) : (s.setI w).memRead a = s.memRead a := rfl
@[simp] theorem State.setI_fetch (s : State) (w : Word) : (s.setI w).fetch = s.fetch := rfl

/-! ### setPc -/
@[simp] theorem State.setPc_v (s : State) (w : Word) : (s.setPc w).v = s.v := rfl
@[simp] theorem State.setPc_i (s : State) (w : Word) : (s.setPc w).i = s.i := rfl
@[simp] theorem State.setPc_pc (s : State) (w : Word) : (s.setPc w).pc = w := rfl
@[simp] theorem State.setPc_stack (s : State) (w : Word) : (s.setPc w).stack = s.stack := rfl
@[simp] theorem State.setPc_sp (s : State) (w : Word) : (s.setPc w).sp = s.sp := rfl
@[simp] theorem State.setPc_dt (s : State) (w : Word) : (s.setPc w).dt = s.dt := rfl
@[simp] theorem State.setPc_st (s : State) (w : Word) : (s.setPc w).st = s.st := rfl
@[simp] theorem State.setPc_mem (s : State) (w : Word) : (s.setPc w).mem = s.mem := rfl
@[simp] theorem State.setPc_gfx (s : State) (w : Word) : (s.setPc w).gfx = s.gfx := rfl
@[simp] theorem State.setPc_redraw (s : State) (w : Word) : (s.setPc w).redraw = s.redraw := rfl
@[simp] theorem State.setPc_opcode (s : State) (w : Word) : (s.setPc w).opcode = s.opcode := rfl
@[simp] theorem State.setPc_key (s : State) (w : Word) : (s.setPc w).key = s.key := rfl
@[simp] theorem State.setPc_rnd (s : State) (w : Word) : (s.setPc w).rnd = s.rnd := rfl
@[simp] theorem State.setPc_tone (s : State) (w : Word) : (s.setPc w).tone = s.tone := rfl
@[simp] theorem State.setPc_diag (s : State) (w : Word) : (s.setPc w).diag = s.diag := rfl
@[simp] theorem State.setPc_turn (s : State) (w : Word) : (s.setPc w).turn = s.turn := rfl
@[simp] theorem State.setPc_reg (s : State) (w : Word) (y : Nibble) : (s.setPc w).reg y = s.reg y := rfl
@[simp] theorem State.setPc_slot (s : State) (w : Word) (j : Nibble) : (s.setPc w).slot j = s.slot j := rfl
@[simp] theorem State.setPc_cell (s : State) (w : Word) (c : Fin 2048) : (s.setPc w).cell c = s.cell c := rfl
@[simp] theorem State.setPc_memRead (s : State) (w : Word) (a : Nat) : (s.setPc w).memRead a = s.memRead a := rfl
@[simp] theorem State.setPc_effAddr (s : State) (w : Word) (a : Nat) : (s.setPc w).effAddr a = s.effAddr a := rfl

/-! ### setSlot -/
@[simp] theorem State.setSlot_v (s : State) (k : Nibble) (w : Word) : (s.setSlot k w).v = s.v := rfl
@[simp] theorem State.setSlot_i (s : State) (k : Nibble) (w : Word) : (s.setSlot k w).i = s.i := rfl
@[simp] theorem State.setSlot_pc (s : State) (k : Nibble) (w : Word) : (s.setSlot k w).pc = s.pc := rfl
@[simp] theorem State.setSlot_stack (s : State) (k : Nibble) (w : Word) : (s.setSlot k w).stack = s.stack.set k.toNat w := rfl
@[simp] theorem State.setSlot_sp (s : State) (k : Nibble) (w : Word) : (s.setSlot k w).sp = s.sp := rfl
@[simp] theorem State.setSlot_dt (s : State) (k : Nibble) (w : Word) : (s.setSlot k w).dt = s.dt := rfl
@[simp] theorem State.setSlot_st (s : State) (k : Nibble) (w : Word) : (s.setSlot k w).st = s.st := rfl
@[simp] theorem State.setSlot_mem (s : State) (k : Nibble) (w : Word) : (s.setSlot k w).mem = s.mem := rfl
@[simp] theorem State.setSlot_gfx (s : State) (k : Nibble) (w : Word) : (s.setSlot k w).gfx = s.gfx := rfl
@[simp] theorem State.setSlot_redraw (s : State) (k : Nibble) (w : Word) : (s.setSlot k w).redraw = s.redraw := rfl
@[simp] theorem State.setSlot_opcode (s : State) (k : Nibble) (w : Word) : (s.setSlot k w).opcode = s.opcode := rfl
@[simp] theorem State.setSlot_key (s : State) (k : Nibble) (w : Word) : (s.setSlot k w).key = s.key := rfl
@[simp] theorem State.setSlot_rnd (s : State) (k : Nibble) (w : Word) : (s.setSlot k w).rnd = s.rnd := rfl
@[simp] theorem State.setSlot_tone (s : State) (k : Nibble) (w : Word) : (s.setSlot k w).tone = s.tone := rfl
@[simp] theorem State.setSlot_diag (s : State) (k : Nibble) (w : Word) : (s.setSlot k w).diag = s.diag := rfl
@[simp] theorem State.setSlot_turn (s : State) (k : Nibble) (w : Word) : (s.setSlot k w).turn = s.turn := rfl
@[simp] theorem State.setSlot_reg (s : State) (k : Nibble) (w : Word) (y : Nibble) : (s.setSlot k w).reg y = s.reg y := rfl
@[simp] theorem State.setSlot_cell (s : State) (k : Nibble) (w : Word) (c : Fin 2048) : (s.setSlot k w).cell c = s.cell c := rfl
@[simp] theorem State.setSlot_memRead (s : State) (k : Nibble) (w : Word) (a : Nat) : (s.setSlot k w).memRead a = s.memRead a := rfl
@[simp] theorem State.setSlot_effAddr (s : State) (k : Nibble) (w : Word) (a : Nat) : (s.setSlot k w).effAddr a = s.effAddr a := rfl
@[simp] theorem State.setSlot_fetch (s : State) (k : Nibble) (w : Word) : (s.setSlot k w).fetch = s.fetch := rfl

/-! ### setSp -/
@[simp] theorem State.setSp_v (s : State) (b : Byte) : (s.setSp b).v = s.v := rfl
@[simp] theorem State.setSp_i (s : State) (b : Byte) : (s.setSp b).i = s.i := rfl
@[simp] theorem State.setSp_pc (s : State) (b : Byte) : (s.setSp b).pc = s.pc := rfl
@[simp] theorem State.setSp_stack (s : State) (b : Byte) : (s.setSp b).stack = s.stack := rfl
@[simp] theorem State.setSp_sp (s : State) (b : Byte) : (s.setSp b).sp = b := rfl
@[simp] theorem State.setSp_dt (s : State) (b : Byte) : (s.setSp b).dt = s.dt := rfl
@[simp] theorem State.setSp_st (s : State) (b : Byte) : (s.setSp b).st = s.st := rfl
@[simp] theorem State.setSp_mem (s : State) (b : Byte) : (s.setSp b).mem = s.mem := rfl
@[simp] theorem State.setSp_gfx (s : State) (b : Byte) : (s.setSp b).gfx = s.gfx := rfl
@[simp] theorem State.setSp_redraw (s : State) (b : Byte) : (s.setSp b).redraw = s.redraw := rfl
@[simp] theorem State.setSp_opcode (s : State) (b : Byte) : (s.setSp b).opcode = s.opcode := rfl
@[simp] theorem State.setSp_key (s : State) (b : Byte) : (s.setSp b).key = s.key := rfl
@[simp] theorem State.setSp_rnd (s : State) (b : Byte) : (s.setSp b).rnd = s.rnd := rfl
@[simp] theorem State.setSp_tone (s : State) (b : Byte) : (s.setSp b).tone = s.tone := rfl
@[simp] theorem State.setSp_diag (s : State) (b : Byte) : (s.setSp b).diag = s.diag := rfl
@[simp] theorem State.setSp_turn (s : State) (b : Byte) : (s.setSp b).turn = s.turn := rfl
@[simp] theorem State.setSp_reg (s : State) (b : Byte) (y : Nibble) : (s.setSp b).reg y = s.reg y := rfl
@[simp] theorem State.setSp_slot (s : State) (b : Byte) (j : Nibble) : (s.setSp b).slot j = s.slot j := rfl
@[simp] theorem State.setSp_cell (s : State) (b : Byte) (c : Fin 2048) : (s.setSp b).cell c = s.cell c := rfl
@[simp] theorem State.setSp_memRead (s : State) (b : Byte) (a : Nat) : (s.setSp b).memRead a = s.memRead a := rfl
@[simp] theorem State.setSp_effAddr (s : State) (b : Byte) (a : Nat) : (s.setSp b).effAddr a = s.effAddr a := rfl
@[simp] theorem State.setSp_fetch (s : State) (b : Byte) : (s.setSp b).fetch = s.fetch := rfl

/-! ### setDt -/
@[simp] theorem State.setDt_v (s : State) (b : Byte) : (s.setDt b).v = s.v := rfl
@[simp] theorem State.setDt_i (s : State) (b : Byte) : (s.setDt b).i = s.i := rfl
@[simp] theorem State.setDt_pc (s : State) (b : Byte) : (s.setDt b).pc = s.pc := rfl
@[simp] theorem State.setDt_stack (s : State) (b : Byte) : (s.setDt b).stack = s.stack := rfl
@[simp] theorem State.setDt_sp (s : State) (b : Byte) : (s.setDt b).sp = s.sp := rfl
@[simp] theorem State.setDt_dt (s : State) (b : Byte) : (s.setDt b).dt = b := rfl
@[simp] theorem State.setDt_st (s : State) (b : Byte) : (s.setDt b).st = s.st := rfl
@[simp] theorem State.setDt_mem (s : State) (b : Byte) : (s.setDt b).mem = s.mem := rfl
@[simp] theorem State.setDt_gfx (s : State) (b : Byte) : (s.setDt b).gfx = s.gfx := rfl
@[simp] theorem State.setDt_redraw (s : State) (b : Byte) : (s.setDt b).redraw = s.redraw := rfl
@[simp] theorem State.setDt_opcode (s : State) (b : Byte) : (s.setDt b).opcode = s.opcode := rfl
@[simp] theorem State.setDt_key (s : State) (b : Byte) : (s.setDt b).key = s.key := rfl
@[simp] theorem State.setDt_rnd (s : State) (b : Byte) : (s.setDt b).rnd = s.rnd := rfl
@[simp] theorem State.setDt_tone (s : State) (b : Byte) : (s.setDt b).tone = s.tone := rfl
@[simp] theorem State.setDt_diag (s : State) (b : Byte) : (s.setDt b).diag = s.diag := rfl
@[simp] theorem State.setDt_turn (s : State) (b : Byte) : (s.setDt b).turn = s.turn := rfl
@[simp] theorem State.setDt_reg (s : State) (b : Byte) (y : Nibble) : (s.setDt b).reg y = s.reg y := rfl
@[simp] theorem State.setDt_slot (s : State) (b : Byte) (j : Nibble) : (s.setDt b).slot j = s.slot j := rfl
@[simp] theorem State.setDt_cell (s : State) (b : Byte) (c : Fin 2048) : (s.setDt b).cell c = s.cell c := rfl
@[simp] theorem State.setDt_memRead (s : State) (b : Byte) (a : Nat) : (s.setDt b).memRead a = s.memRead a := rfl
@[simp] theorem State.setDt_effAddr (s : State) (b : Byte) (a : Nat) : (s.setDt b).effAddr a = s.effAddr a := rfl
@[simp] theorem State.setDt_fetch (s : State) (b : Byte) : (s.setDt b).fetch = s.fetch := rfl

/-! ### setSt -/
@[simp] theorem State.setSt_v (s : State) (b : Byte) : (s.setSt b).v = s.v := rfl
@[simp] theorem State.setSt_i (s : State) (b : Byte) : (s.setSt b).i = s.i := rfl
@[simp] theorem State.setSt_pc (s : State) (b : Byte) : (s.setSt b).pc = s.pc := rfl
@[simp] theorem State.setSt_stack (s : State) (b : Byte) : (s.setSt b).stack = s.stack := rfl
@[simp] theorem State.setSt_sp (s : State) (b : Byte) : (s.setSt b).sp = s.sp := rfl
@[simp] theorem State.setSt_dt (s : State) (b : Byte) : (s.setSt b).dt = s.dt := rfl
@[simp] theorem State.setSt_st (s : State) (b : Byte) : (s.setSt b).st = b := rfl
@[simp] theorem State.setSt_mem (s : State) (b : Byte) : (s.setSt b).mem = s.mem := rfl
@[simp] theorem State.setSt_gfx (s : State) (b : Byte) : (s.setSt b).gfx = s.gfx := rfl
@[simp] theorem State.setSt_redraw (s : State) (b : Byte) : (s.setSt b).redraw = s.redraw := rfl
@[simp] theorem State.setSt_opcode (s : State) (b : Byte) : (s.setSt b).opcode = s.opcode := rfl
@[simp] theorem State.setSt_key (s : State) (b : Byte) : (s.setSt b).key = s.key := rfl
@[simp] theorem State.setSt_rnd (s : State) (b : Byte) : (s.setSt b).rnd = s.rnd := rfl
@[simp] theorem State.setSt_tone (s : State) (b : Byte) : (s.setSt b).tone = s.tone := rfl
@[simp] theorem State.setSt_diag (s : State) (b : Byte) : (s.setSt b).diag = s.diag := rfl
@[simp] theorem State.setSt_turn (s : State) (b : Byte) : (s.setSt b).turn = s.turn := rfl
@[simp] theorem State.setSt_reg (s : State) (b : Byte) (y : Nibble) : (s.setSt b).reg y = s.reg y := rfl
@[simp] theorem State.setSt_slot (s : State) (b : Byte) (j : Nibble) : (s.setSt b).slot j = s.slot j := rfl
@[simp] theorem State.setSt_cell (s : State) (b : Byte) (c : Fin 2048) : (s.setSt b).cell c = s.cell c := rfl
@[simp] theorem State.setSt_memRead (s : State) (b : Byte) (a : Nat) : (s.setSt b).memRead a = s.memRead a := rfl
@[simp] theorem State.setSt_effAddr (s : State) (b : Byte) (a : Nat) : (s.setSt b).effAddr a = s.effAddr a := rfl
@[simp] theorem State.setSt_fetch (s : State) (b : Byte) : (s.setSt b).fetch = s.fetch := rfl

/-! ### setMem -/
@[simp] theorem State.setMem_v (s : State) (m : Memory) : (s.setMem m).v = s.v := rfl
@[simp] theorem State.setMem_i (s : State) (m : Memory) : (s.setMem m).i = s.i := rfl
@[simp] theorem State.setMem_pc (s : State) (m : Memory) : (s.setMem m).pc = s.pc := rfl
@[simp] theorem State.setMem_stack (s : State) (m : Memory) : (s.setMem m).stack = s.stack := rfl
@[simp] theorem State.setMem_sp (s : State) (m : Memory) : (s.setMem m).sp = s.sp := rfl
@[simp] theorem State.setMem_dt (s : State) (m : Memory) : (s.setMem m).dt = s.dt := rfl
@[simp] theorem State.setMem_st (s : State) (m : Memory) : (s.setMem m).st = s.st := rfl
@[simp] theorem State.setMem_mem (s : State) (m : Memory) : (s.setMem m).mem = m := rfl
@[simp] theorem State.setMem_gfx (s : State) (m : Memory) : (s.setMem m).gfx = s.gfx := rfl
@[simp] theorem State.setMem_redraw (s : State) (m : Memory) : (s.setMem m).redraw = s.redraw := rfl
@[simp] theorem State.setMem_opcode (s : State) (m : Memory) : (s.setMem m).opcode = s.opcode := rfl
@[simp] theorem State.setMem_key (s : State) (m : Memory) : (s.setMem m).key = s.key := rfl
@[simp] theorem State.setMem_rnd (s : State) (m : Memory) : (s.setMem m).rnd = s.rnd := rfl
@[simp] theorem State.setMem_tone (s : State) (m : Memory) : (s.setMem m).tone = s.tone := rfl
@[simp] theorem State.setMem_diag (s : State) (m : Memory) : (s.setMem m).diag = s.diag := rfl
@[simp] theorem State.setMem_turn (s : State) (m : Memory) : (s.setMem m).turn = s.turn := rfl
@[simp] theorem State.setMem_reg (s : State) (m : Memory) (y : Nibble) : (s.setMem m).reg y = s.reg y := rfl
@[simp] theorem State.setMem_slot (s : State) (m : Memory) (j : Nibble) : (s.setMem m).slot j = s.slot j := rfl
@[simp] theorem State.setMem_cell (s : State) (m : Memory) (c : Fin 2048) : (s.setMem m).cell c = s.cell c := rfl
@[simp] theorem State.setMem_effAddr (s : State) (m : Memory) (a : Nat) : (s.setMem m).effAddr a = s.effAddr a := rfl

/-! ### setGfx -/
@[simp] theorem State.setGfx_v (s : State) (g : Vector Bool 2048) : (s.setGfx g).v = s.v := rfl
@[simp] theorem State.setGfx_i (s : State) (g : Vector Bool 2048) : (s.setGfx g).i = s.i := rfl
@[simp] theorem State.setGfx_pc (s : State) (g : Vector Bool 2048) : (s.setGfx g).pc = s.pc := rfl
@[simp] theorem State.setGfx_stack (s : State) (g : Vector Bool 2048) : (s.setGfx g).stack = s.stack := rfl
@[simp] theorem State.setGfx_sp (s : State) (g : Vector Bool 2048) : (s.setGfx g).sp = s.sp := rfl
@[simp] theorem State.setGfx_dt (s : State) (g : Vector Bool 2048) : (s.setGfx g).dt = s.dt := rfl
@[simp] theorem State.setGfx_st (s : State) (g : Vector Bool 2048) : (s.setGfx g).st = s.st := rfl
@[simp] theorem State.setGfx_mem (s : State) (g : Vector Bool 2048) : (s.setGfx g).mem = s.mem := rfl
@[simp] theorem State.setGfx_gfx (s : State) (g : Vector Bool 2048) : (s.setGfx g).gfx = g := rfl
@[simp] theorem State.setGfx_redraw (s : State) (g : Vector Bool 2048) : (s.setGfx g).redraw = s.redraw := rfl
@[simp] theorem State.setGfx_opcode (s : State) (g : Vector Bool 2048) : (s.setGfx g).opcode = s.opcode := rfl
@[simp] theorem State.setGfx_key (s : State) (g : Vector Bool 2048) : (s.setGfx g).key = s.key := rfl
@[simp] theorem State.setGfx_rnd (s : State) (g : Vector Bool 2048) : (s.setGfx g).rnd = s.rnd := rfl
@[simp] theorem State.setGfx_tone (s : State) (g : Vector Bool 2048) : (s.setGfx g).tone = s.tone := rfl
@[simp] theorem State.setGfx_diag (s : State) (g : Vector Bool 2048) : (s.setGfx g).diag = s.diag := rfl
@[simp] theorem State.setGfx_turn (s : State) (g : Vector Bool 2048) : (s.setGfx g).turn = s.turn := rfl
@[simp] theorem State.setGfx_reg (s : State) (g : Vector Bool 2048) (y : Nibble) : (s.setGfx g).reg y = s.reg y := rfl
@[simp] theorem State.setGfx_slot (s : State) (g : Vector Bool 2048) (j : Nibble) : (s.setGfx g).slot j = s.slot j := rfl
@[simp] theorem State.setGfx_memRead (s : State) (g : Vector Bool 2048) (a : Nat) : (s.setGfx g).memRead a = s.memRead a := rfl
@[simp] theorem State.setGfx_effAddr (s : State) (g : Vector Bool 2048) (a : Nat) : (s.setGfx g).effAddr a = s.effAddr a := rfl
@[simp] theorem State.setGfx_fetch (s : State) (g : Vector Bool 2048) : (s.setGfx g).fetch = s.fetch := rfl

/-! ### setRedraw -/
@[simp] theorem State.setRedraw_v (s : State) (b : Bool) : (s.setRedraw b).v = s.v := rfl
@[simp] theorem State.setRedraw_i (s : State) (b : Bool) : (s.setRedraw b).i = s.i := rfl
@[simp] theorem State.setRedraw_pc (s : State) (b : Bool) : (s.setRedraw b).pc = s.pc := rfl
@[simp] theorem State.setRedraw_stack (s : State) (b : Bool) : (s.setRedraw b).stack = s.stack := rfl
@[simp] theorem State.setRedraw_sp (s : State) (b : Bool) : (s.setRedraw b).sp = s.sp := rfl
@[simp] theorem State.setRedraw_dt (s : State) (b : Bool) : (s.setRedraw b).dt = s.dt := rfl
@[simp] theorem State.setRedraw_st (s : State) (b : Bool) : (s.setRedraw b).st = s.st := rfl
@[simp] theorem State.setRedraw_mem (s : State) (b : Bool) : (s.setRedraw b).mem = s.mem := rfl
@[simp] theorem State.setRedraw_gfx (s : State) (b : Bool) : (s.setRedraw b).gfx = s.gfx := rfl
@[simp] theorem State.setRedraw_redraw (s : State) (b : Bool) : (s.setRedraw b).redraw = b := rfl
@[simp] theorem State.setRedraw_opcode (s : State) (b : Bool) : (s.setRedraw b).opcode = s.opcode := rfl
@[simp] theorem State.setRedraw_key (s : State) (b : Bool) : (s.setRedraw b).key = s.key := rfl
@[simp] theorem State.setRedraw_rnd (s : State) (b : Bool) : (s.setRedraw b).rnd = s.rnd := rfl
@[simp] theorem State.setRedraw_tone (s : State) (b : Bool) : (s.setRedraw b).tone = s.tone := rfl
@[simp] theorem State.setRedraw_diag (s : State) (b : Bool) : (s.setRedraw b).diag = s.diag := rfl
@[simp] theorem State.setRedraw_turn (s : State) (b : Bool) : (s.setRedraw b).turn = s.turn := rfl
@[simp] theorem State.setRedraw_reg (s : State) (b : Bool) (y : Nibble) : (s.setRedraw b).reg y = s.reg y := rfl
@[simp] theorem State.setRedraw_slot (s : State) (b : Bool) (j : Nibble) : (s.setRedraw b).slot j = s.slot j := rfl
@[simp] theorem State.setRedraw_cell (s : State) (b : Bool) (c : Fin 2048) : (s.setRedraw b).cell c = s.cell c := rfl
@[simp] theorem State.setRedraw_memRead (s : State) (b : Bool) (a : Nat) : (s.setRedraw b).memRead a = s.memRead a := rfl
@[simp] theorem State.setRedraw_effAddr (s : State) (b : Bool) (a : Nat) : (s.setRedraw b).effAddr a = s.effAddr a := rfl
@[simp] theorem State.setRedraw_fetch (s : State) (b : Bool) : (s.setRedraw b).fetch = s.fetch := rfl

/-! ### setOpcode -/
@[simp] theorem State.setOpcode_v (s : State) (w : Word) : (s.setOpcode w).v = s.v := rfl
@[simp] theorem State.setOpcode_i (s : State) (w : Word) : (s.setOpcode w).i = s.i := rfl
@[simp] theorem State.setOpcode_pc (s : State) (w : Word) : (s.setOpcode w).pc = s.pc := rfl
@[simp] theorem State.setOpcode_stack (s : State) (w : Word) : (s.setOpcode w).stack = s.stack := rfl
@[simp] theorem State.setOpcode_sp (s : State) (w : Word) : (s.setOpcode w).sp = s.sp := rfl
@[simp] theorem State.setOpcode_dt (s : State) (w : Word) : (s.setOpcode w).dt = s.dt := rfl
@[simp] theorem State.setOpcode_st (s : State) (w : Word) : (s.setOpcode w).st = s.st := rfl
@[simp] theorem State.setOpcode_mem (s : State) (w : Word) : (s.setOpcode w).mem = s.mem := rfl
@[simp] theorem State.setOpcode_gfx (s : State) (w : Word) : (s.setOpcode w).gfx = s.gfx := rfl
@[simp] theorem State.setOpcode_redraw (s : State) (w : Word) : (s.setOpcode w).redraw = s.redraw := rfl
@[simp] theorem State.setOpcode_opcode (s : State) (w : Word) : (s.setOpcode w).opcode = w := rfl
@[simp] theorem State.setOpcode_key (s : State) (w : Word) : (s.setOpcode w).key = s.key := rfl
@[simp] theorem State.setOpcode_rnd (s : State) (w : Word) : (s.setOpcode w).rnd = s.rnd := rfl
@[simp] theorem State.setOpcode_tone (s : State) (w : Word) : (s.setOpcode w).tone = s.tone := rfl
@[simp] theorem State.setOpcode_diag (s : State) (w : Word) : (s.setOpcode w).diag = s.diag := rfl
@[simp] theorem State.setOpcode_turn (s : State) (w : Word) : (s.setOpcode w).turn = s.turn := rfl
@[simp] theorem State.setOpcode_reg (s : State) (w : Word) (y : Nibble) : (s.setOpcode w).reg y = s.reg y := rfl
@[simp] theorem State.setOpcode_slot (s : State) (w : Word) (j : Nibble) : (s.setOpcode w).slot j = s.slot j := rfl
@[simp] theorem State.setOpcode_cell (s : State) (w : Word) (c : Fin 2048) : (s.setOpcode w).cell c = s.cell c := rfl
@[simp] theorem State.setOpcode_memRead (s : State) (w : Word) (a : Nat) : (s.setOpcode w).memRead a = s.memRead a := rfl
@[simp] theorem State.setOpcode_effAddr (s : State) (w : Word) (a : Nat) : (s.setOpcode w).effAddr a = s.effAddr a := rfl
@[simp] theorem State.setOpcode_fetch (s : State) (w : Word) : (s.setOpcode w).fetch = s.fetch := rfl

/-! ### setKey -/
@[simp] theorem State.setKey_v (s : State) (k : BitVec 16) : (s.setKey k).v = s.v := rfl
@[simp] theorem State.setKey_i (s : State) (k : BitVec 16) : (s.setKey k).i = s.i := rfl
@[simp] theorem State.setKey_pc (s : State) (k : BitVec 16) : (s.setKey k).pc = s.pc := rfl
@[simp] theorem State.setKey_stack (s : State) (k : BitVec 16) : (s.setKey k).stack = s.stack := rfl
@[simp] theorem State.setKey_sp (s : State) (k : BitVec 16) : (s.setKey k).sp = s.sp := rfl
@[simp] theorem State.setKey_dt (s : State) (k : BitVec 16) : (s.setKey k).dt = s.dt := rfl
@[simp] theorem State.setKey_st (s : State) (k : BitVec 16) : (s.setKey k).st = s.st := rfl
@[simp] theorem State.setKey_mem (s : State) (k : BitVec 16) : (s.setKey k).mem = s.mem := rfl
@[simp] theorem State.setKey_gfx (s : State) (k : BitVec 16) : (s.setKey k).gfx = s.gfx := rfl
@[simp] theorem State.setKey_redraw (s : State) (k : BitVec 16) : (s.setKey k).redraw = s.redraw := rfl
@[simp] theorem State.setKey_opcode (s : State) (k : BitVec 16) : (s.setKey k).opcode = s.opcode := rfl
@[simp] theorem State.setKey_key (s : State) (k : BitVec 16) : (s.setKey k).key = k := rfl
@[simp] theorem State.setKey_rnd (s : State) (k : BitVec 16) : (s.setKey k).rnd = s.rnd := rfl
@[simp] theorem State.setKey_tone (s : State) (k : BitVec 16) : (s.setKey k).tone = s.tone := rfl
@[simp] theorem State.setKey_diag (s : State) (k : BitVec 16) : (s.setKey k).diag = s.diag := rfl
@[simp] theorem State.setKey_turn (s : State) (k : BitVec 16) : (s.setKey k).turn = s.turn := rfl
@[simp] theorem State.setKey_reg (s : State) (k : BitVec 16) (y : Nibble) : (s.setKey k).reg y = s.reg y := rfl
@[simp] theorem State.setKey_slot (s : State) (k : BitVec 16) (j : Nibble) : (s.setKey k).slot j = s.slot j := rfl
@[simp] theorem State.setKey_cell (s : State) (k : BitVec 16) (c : Fin 2048) : (s.setKey k).cell c = s.cell c := rfl
@[simp] theorem State.setKey_memRead (s : State) (k : BitVec 16) (a : Nat) : (s.setKey k).memRead a = s.memRead a := rfl
@[simp] theorem State.setKey_effAddr (s : State) (k : BitVec 16) (a : Nat) : (s.setKey k).effAddr a = s.effAddr a := rfl
@[simp] theorem State.setKey_fetch (s : State) (k : BitVec 16) : (s.setKey k).fetch = s.fetch := rfl

/-! ### setRnd -/
@[simp] theorem State.setRnd_v (s : State) (b : Byte) : (s.setRnd b).v = s.v := rfl
@[simp] theorem State.setRnd_i (s : State) (b : Byte) : (s.setRnd b).i = s.i := rfl
@[simp] theorem State.setRnd_pc (s : State) (b : Byte) : (s.setRnd b).pc = s.pc := rfl
@[simp] theorem State.setRnd_stack (s : State) (b : Byte) : (s.setRnd b).stack = s.stack := rfl
@[simp] theorem State.setRnd_sp (s : State) (b : Byte) : (s.setRnd b).sp = s.sp := rfl
@[simp] theorem State.setRnd_dt (s : State) (b : Byte) : (s.setRnd b).dt = s.dt := rfl
@[simp] theorem State.setRnd_st (s : State) (b : Byte) : (s.setRnd b).st = s.st := rfl
@[simp] theorem State.setRnd_mem (s : State) (b : Byte) : (s.setRnd b).mem = s.mem := rfl
@[simp] theorem State.setRnd_gfx (s : State) (b : Byte) : (s.setRnd b).gfx = s.gfx := rfl
@[simp] theorem State.setRnd_redraw (s : State) (b : Byte) : (s.setRnd b).redraw = s.redraw := rfl
@[simp] theorem State.setRnd_opcode (s : State) (b : Byte) : (s.setRnd b).opcode = s.opcode := rfl
@[simp] theorem State.setRnd_key (s : State) (b : Byte) : (s.setRnd b).key = s.key := rfl
@[simp] theorem State.setRnd_rnd (s : State) (b : Byte) : (s.setRnd b).rnd = b := rfl
@[simp] theorem State.setRnd_tone (s : State) (b : Byte) : (s.setRnd b).tone = s.tone := rfl
@[simp] theorem State.setRnd_diag (s : State) (b : Byte) : (s.setRnd b).diag = s.diag := rfl
@[simp] theorem State.setRnd_turn (s : State) (b : Byte) : (s.setRnd b).turn = s.turn := rfl
@[simp] theorem State.setRnd_reg (s : State) (b : Byte) (y : Nibble) : (s.setRnd b).reg y = s.reg y := rfl
@[simp] theorem State.setRnd_slot (s : State) (b : Byte) (j : Nibble) : (s.setRnd b).slot j = s.slot j := rfl
@[simp] theorem State.setRnd_cell (s : State) (b : Byte) (c : Fin 2048) : (s.setRnd b).cell c = s.cell c := rfl
@[simp] theorem State.setRnd_memRead (s : State) (b : Byte) (a : Nat) : (s.setRnd b).memRead a = s.memRead a := rfl
@[simp] theorem State.setRnd_effAddr (s : State) (b : Byte) (a : Nat) : (s.setRnd b).effAddr a = s.effAddr a := rfl
@[simp] theorem State.setRnd_fetch (s : State) (b : Byte) : (s.setRnd b).fetch = s.fetch := rfl

/-! ### setTone -/
@[simp] theorem State.setTone_v (s : State) (b : Bool) : (s.setTone b).v = s.v := rfl
@[simp] theorem State.setTone_i (s : State) (b : Bool) : (s.setTone b).i = s.i := rfl
@[simp] theorem State.setTone_pc (s : State) (b : Bool) : (s.setTone b).pc = s.pc := rfl
@[simp] theorem State.setTone_stack (s : State) (b : Bool) : (s.setTone b).stack = s.stack := rfl
@[simp] theorem State.setTone_sp (s : State) (b : Bool) : (s.setTone b).sp = s.sp := rfl
@[simp] theorem State.setTone_dt (s : State) (b : Bool) : (s.setTone b).dt = s.dt := rfl
@[simp] theorem State.setTone_st (s : State) (b : Bool) : (s.setTone b).st = s.st := rfl
@[simp] theorem State.setTone_mem (s : State) (b : Bool) : (s.setTone b).mem = s.mem := rfl
@[simp] theorem State.setTone_gfx (s : State) (b : Bool) : (s.setTone b).gfx = s.gfx := rfl
@[simp] theorem State.setTone_redraw (s : State) (b : Bool) : (s.setTone b).redraw = s.redraw := rfl
@[simp] theorem State.setTone_opcode (s : State) (b : Bool) : (s.setTone b).opcode = s.opcode := rfl
@[simp] theorem State.setTone_key (s : State) (b : Bool) : (s.setTone b).key = s.key := rfl
@[simp] theorem State.setTone_rnd (s : State) (b : Bool) : (s.setTone b).rnd = s.rnd := rfl
@[simp] theorem State.setTone_tone (s : State) (b : Bool) : (s.setTone b).tone = b := rfl
@[simp] theorem State.setTone_diag (s : State) (b : Bool) : (s.setTone b).diag = s.diag := rfl
@[simp] theorem State.setTone_turn (s : State) (b : Bool) : (s.setTone b).turn = s.turn := rfl
@[simp] theorem State.setTone_reg (s : State) (b : Bool) (y : Nibble) : (s.setTone b).reg y = s.reg y := rfl
@[simp] theorem State.setTone_slot (s : State) (b : Bool) (j : Nibble) : (s.setTone b).slot j = s.slot j := rfl
@[simp] theorem State.setTone_cell (s : State) (b : Bool) (c : Fin 2048) : (s.setTone b).cell c = s.cell c := rfl
@[simp] theorem State.setTone_memRead (s : State) (b : Bool) (a : Nat) : (s.setTone b).memRead a = s.memRead a := rfl
@[simp] theorem State.setTone_effAddr (s : State) (b : Bool) (a : Nat) : (s.setTone b).effAddr a = s.effAddr a := rfl
@[simp] theorem State.setTone_fetch (s : State) (b : Bool) : (s.setTone b).fetch = s.fetch := rfl

/-! ### setDiag -/
@[simp] theorem State.setDiag_v (s : State) (d : Option Diag) : (s.setDiag d).v = s.v := rfl
@[simp] theorem State.setDiag_i (s : State) (d : Option Diag) : (s.setDiag d).i = s.i := rfl
@[simp] theorem State.setDiag_pc (s : State) (d : Option Diag) : (s.setDiag d).pc = s.pc := rfl
@[simp] theorem State.setDiag_stack (s : State) (d : Option Diag) : (s.setDiag d).stack = s.stack := rfl
@[simp] theorem State.setDiag_sp (s : State) (d : Option Diag) : (s.setDiag d).sp = s.sp := rfl
@[simp] theorem State.setDiag_dt (s : State) (d : Option Diag) : (s.setDiag d).dt = s.dt := rfl
@[simp] theorem State.setDiag_st (s : State) (d : Option Diag) : (s.setDiag d).st = s.st := rfl
@[simp] theorem State.setDiag_mem (s : State) (d : Option Diag) : (s.setDiag d).mem = s.mem := rfl
@[simp] theorem State.setDiag_gfx (s : State) (d : Option Diag) : (s.setDiag d).gfx = s.gfx := rfl
@[simp] theorem State.setDiag_redraw (s : State) (d : Option Diag) : (s.setDiag d).redraw = s.redraw := rfl
@[simp] theorem State.setDiag_opcode (s : State) (d : Option Diag) : (s.setDiag d).opcode = s.opcode := rfl
@[simp] theorem State.setDiag_key (s : State) (d : Option Diag) : (s.setDiag d).key = s.key := rfl
@[simp] theorem State.setDiag_rnd (s : State) (d : Option Diag) : (s.setDiag d).rnd = s.rnd := rfl
@[simp] theorem State.setDiag_tone (s : State) (d : Option Diag) : (s.setDiag d).tone = s.tone := rfl
@[simp] theorem State.setDiag_diag (s : State) (d : Option Diag) : (s.setDiag d).diag = d := rfl
@[simp] theorem State.setDiag_turn (s : State) (d : Option Diag) : (s.setDiag d).turn = s.turn := rfl
@[simp] theorem State.setDiag_reg (s : State) (d : Option Diag) (y : Nibble) : (s.setDiag d).reg y = s.reg y := rfl
@[simp] theorem State.setDiag_slot (s : State) (d : Option Diag) (j : Nibble) : (s.setDiag d).slot j = s.slot j := rfl
@[simp] theorem State.setDiag_cell (s : State) (d : Option Diag) (c : Fin 2048) : (s.setDiag d).cell c = s.cell c := rfl
@[simp] theorem State.setDiag_memRead (s : State) (d : Option Diag) (a : Nat) : (s.setDiag d).memRead a = s.memRead a := rfl
@[simp] theorem State.setDiag_effAddr (s : State) (d : Option Diag) (a : Nat) : (s.setDiag d).effAddr a = s.effAddr a := rfl
@[simp] theorem State.setDiag_fetch (s : State) (d : Option Diag) : (s.setDiag d).fetch = s.fetch := rfl

/-! ### setTurn -/
@[simp] theorem State.setTurn_v (s : State) (n : Nat) : (s.setTurn n).v = s.v := rfl
@[simp] theorem State.setTurn_i (s : State) (n : Nat) : (s.setTurn n).i = s.i := rfl
@[simp] theorem State.setTurn_pc (s : State) (n : Nat) : (s.setTurn n).pc = s.pc := rfl
@[simp] theorem State.setTurn_stack (s : State) (n : Nat) : (s.setTurn n).stack = s.stack := rfl
@[simp] theorem State.setTurn_sp (s : State) (n : Nat) : (s.setTurn n).sp = s.sp := rfl
@[simp] theorem State.setTurn_dt (s : State) (n : Nat) : (s.setTurn n).dt = s.dt := rfl
@[simp] theorem State.setTurn_st (s : State) (n : Nat) : (s.setTurn n).st = s.st := rfl
@[simp] theorem State.setTurn_mem (s : State) (n : Nat) : (s.setTurn n).mem = s.mem := rfl
@[simp] theorem State.setTurn_gfx (s : State) (n : Nat) : (s.setTurn n).gfx = s.gfx := rfl
@[simp] theorem State.setTurn_redraw (s : State) (n : Nat) : (s.setTurn n).redraw = s.redraw := rfl
@[simp] theorem State.setTurn_opcode (s : State) (n : Nat) : (s.setTurn n).opcode = s.opcode := rfl
@[simp] theorem State.setTurn_key (s : State) (n : Nat) : (s.setTurn n).key = s.key := rfl
@[simp] theorem State.setTurn_rnd (s : State) (n : Nat) : (s.setTurn n).rnd = s.rnd := rfl
@[simp] theorem State.setTurn_tone (s : State) (n : Nat) : (s.setTurn n).tone = s.tone := rfl
@[simp] theorem State.setTurn_diag (s : State) (n : Nat) : (s.setTurn n).diag = s.diag := rfl
@[simp] theorem State.setTurn_turn (s : State) (n : Nat) : (s.setTurn n).turn = n := rfl
@[simp] theorem State.setTurn_reg (s : State) (n : Nat) (y : Nibble) : (s.setTurn n).reg y = s.reg y := rfl
@[simp] theorem State.setTurn_slot (s : State) (n : Nat) (j : Nibble) : (s.setTurn n).slot j = s.slot j := rfl
@[simp] theorem State.setTurn_cell (s : State) (n : Nat) (c : Fin 2048) : (s.setTurn n).cell c = s.cell c := rfl
@[simp] theorem State.setTurn_memRead (s : State) (n : Nat) (a : Nat) : (s.setTurn n).memRead a = s.memRead a := rfl
@[simp] theorem State.setTurn_effAddr (s : State) (n : Nat) (a : Nat) : (s.setTurn n).effAddr a = s.effAddr a := rfl
@[simp] theorem State.setTurn_fetch (s : State) (n : Nat) : (s.setTurn n).fetch = s.fetch := rfl

/-! ### Reading back what was written -/

/-- A written register reads as written, every other as before. -/
theorem State.setReg_reg (s : State) (x : Nibble) (b : Byte) (y : Nibble) :
    (s.setReg x b).reg y = if y = x then b else s.reg y := by
  simp only [State.reg, State.setReg, Vector.getElem_set, eq_comm (a := y), BitVec.toNat_inj]

@[simp] theorem State.setReg_reg_self (s : State) (x : Nibble) (b : Byte) : (s.setReg x b).reg x = b := by
  simp [State.setReg_reg]

/-- A written slot reads as written, every other as before. -/
theorem State.setSlot_slot (s : State) (k : Nibble) (w : Word) (j : Nibble) :
    (s.setSlot k w).slot j = if j = k then w else s.slot j := by
  simp only [State.slot, State.setSlot, Vector.getElem_set, eq_comm (a := j), BitVec.toNat_inj]

@[simp] theorem State.setSlot_slot_self (s : State) (k : Nibble) (w : Word) : (s.setSlot k w).slot k = w := by
  simp [State.setSlot_slot]

theorem State.setGfx_cell (s : State) (g : Vector Bool 2048) (c : Fin 2048) : (s.setGfx g).cell c = g[c.val] := rfl

theorem State.setMem_memRead (s : State) (m : Memory) (a : Nat) :
    (s.setMem m).memRead a = m.read (a % Config.memSize) := rfl

theorem State.setI_effAddr (s : State) (w : Word) (a : Nat) :
    (s.setI w).effAddr a = (w.toNat + a) % Config.memSize := rfl

end Sys2Proof.Machine
end

