-- ==== Sys2Proof/Laws/Display.lean ====
section
/-!
SUPPORT. Sys2Proof/Laws/Display.lean: one pixel of a draw, and that a draw visits no cell twice (43_display.md R184 (a)).
-/
namespace Sys2Proof.Machine

open Sys2Proof (Byte Word Nibble)

/-- Distinct row and column offsets of a sprite fall on distinct cells. -/
theorem spriteCell_inj {x0 y0 : Byte} {r c r' c' : Nat} (hr : r < 16) (hr' : r' < 16) (hc : c < 8) (hc' : c' < 8)
    (h : spriteCell x0 y0 r c = spriteCell x0 y0 r' c') : r = r' ∧ c = c' := by
  have h := congrArg Fin.val h
  simp only [spriteCell] at h
  omega

/-- A pixel of a draw flips its own cell when the sprite bit is 1, and no other cell. -/
theorem drawPixel_cell (x0 y0 row : Byte) (r c : Nat) (acc : DrawAcc) (k : Fin 2048) :
    (drawPixel x0 y0 row r acc c).1[k.val] =
      if spriteBit row c = true ∧ k = spriteCell x0 y0 r c then !acc.1[k.val] else acc.1[k.val] := by
  unfold drawPixel
  by_cases hb : spriteBit row c = true
  · by_cases hk : k = spriteCell x0 y0 r c
    · subst hk
      simp [hb]
    · have : (spriteCell x0 y0 r c).val ≠ k.val := fun e => hk (Fin.ext e.symm)
      simp [hb, hk, this]
  · simp [hb]

/-- A pixel of a draw collides when the sprite bit is 1 and its cell is set. -/
theorem drawPixel_hit (x0 y0 row : Byte) (r c : Nat) (acc : DrawAcc) :
    (drawPixel x0 y0 row r acc c).2 = (acc.2 || (spriteBit row c && acc.1[(spriteCell x0 y0 r c).val])) := by
  unfold drawPixel
  by_cases hb : spriteBit row c = true <;> simp [hb]

end Sys2Proof.Machine
end

