-- ==== Sys2Proof/Laws/Encoding.lean ====
section
/-!
SUPPORT. Sys2Proof/Laws/Encoding.lean: the fields (R71) read back from the words the four formats (R72) build.
-/
namespace Sys2Proof

@[simp] theorem family_encodeAddr (f : Nibble) (nnn : Addr) : family (encodeAddr f nnn) = f :=
  BitVec.extractLsb'_append_eq_left

@[simp] theorem fieldNNN_encodeAddr (f : Nibble) (nnn : Addr) : fieldNNN (encodeAddr f nnn) = nnn :=
  BitVec.extractLsb'_append_eq_right

@[simp] theorem family_encodeRegImm (f x : Nibble) (nn : Byte) : family (encodeRegImm f x nn) = f :=
  BitVec.extractLsb'_append_eq_left

@[simp] theorem fieldX_encodeRegImm (f x : Nibble) (nn : Byte) : fieldX (encodeRegImm f x nn) = x := by
  apply BitVec.eq_of_getLsbD_eq
  intro k hk
  interval_cases k <;>
    simp only [fieldX, encodeRegImm, BitVec.getLsbD_extractLsb', BitVec.getLsbD_append] <;> simp

@[simp] theorem fieldNN_encodeRegImm (f x : Nibble) (nn : Byte) : fieldNN (encodeRegImm f x nn) = nn := by
  apply BitVec.eq_of_getLsbD_eq
  intro k hk
  interval_cases k <;>
    simp only [fieldNN, encodeRegImm, BitVec.getLsbD_extractLsb', BitVec.getLsbD_append] <;> simp

@[simp] theorem family_encodeRegReg (f x y n : Nibble) : family (encodeRegReg f x y n) = f :=
  BitVec.extractLsb'_append_eq_left

@[simp] theorem fieldX_encodeRegReg (f x y n : Nibble) : fieldX (encodeRegReg f x y n) = x := by
  apply BitVec.eq_of_getLsbD_eq
  intro k hk
  interval_cases k <;>
    simp only [fieldX, encodeRegReg, BitVec.getLsbD_extractLsb', BitVec.getLsbD_append] <;> simp

@[simp] theorem fieldY_encodeRegReg (f x y n : Nibble) : fieldY (encodeRegReg f x y n) = y := by
  apply BitVec.eq_of_getLsbD_eq
  intro k hk
  interval_cases k <;>
    simp only [fieldY, encodeRegReg, BitVec.getLsbD_extractLsb', BitVec.getLsbD_append] <;> simp

@[simp] theorem fieldN_encodeRegReg (f x y n : Nibble) : fieldN (encodeRegReg f x y n) = n := by
  apply BitVec.eq_of_getLsbD_eq
  intro k hk
  interval_cases k <;>
    simp only [fieldN, encodeRegReg, BitVec.getLsbD_extractLsb', BitVec.getLsbD_append] <;> simp

@[simp] theorem family_encodeRegSub (f x : Nibble) (sub : Byte) : family (encodeRegSub f x sub) = f :=
  BitVec.extractLsb'_append_eq_left

@[simp] theorem fieldX_encodeRegSub (f x : Nibble) (sub : Byte) : fieldX (encodeRegSub f x sub) = x :=
  fieldX_encodeRegImm f x sub

@[simp] theorem fieldNN_encodeRegSub (f x : Nibble) (sub : Byte) : fieldNN (encodeRegSub f x sub) = sub :=
  fieldNN_encodeRegImm f x sub

/-! ## A word is built from its own fields -/

theorem encodeAddr_fields (ir : Word) : encodeAddr (family ir) (fieldNNN ir) = ir := by
  apply BitVec.eq_of_getLsbD_eq
  intro k hk
  interval_cases k <;>
    simp only [encodeAddr, family, fieldNNN, BitVec.getLsbD_append, BitVec.getLsbD_extractLsb'] <;> simp

theorem encodeRegImm_fields (ir : Word) : encodeRegImm (family ir) (fieldX ir) (fieldNN ir) = ir := by
  apply BitVec.eq_of_getLsbD_eq
  intro k hk
  interval_cases k <;>
    simp only [encodeRegImm, family, fieldX, fieldNN, BitVec.getLsbD_append, BitVec.getLsbD_extractLsb'] <;> simp

theorem encodeRegReg_fields (ir : Word) : encodeRegReg (family ir) (fieldX ir) (fieldY ir) (fieldN ir) = ir := by
  apply BitVec.eq_of_getLsbD_eq
  intro k hk
  interval_cases k <;>
    simp only [encodeRegReg, family, fieldX, fieldY, fieldN, BitVec.getLsbD_append, BitVec.getLsbD_extractLsb'] <;>
    simp

theorem encodeRegSub_fields (ir : Word) : encodeRegSub (family ir) (fieldX ir) (fieldNN ir) = ir :=
  encodeRegImm_fields ir

/-! ## Bytes -/

/-- The two bytes of a word, lower address first, spell it again (R54). -/
@[simp] theorem wordOfBytes_bytes (w : Word) : wordOfBytes (firstByte w) (secondByte w) = w := by
  apply BitVec.eq_of_getLsbD_eq
  intro k hk
  interval_cases k <;>
    simp only [wordOfBytes, firstByte, secondByte, BitVec.getLsbD_append, BitVec.getLsbD_extractLsb'] <;> simp

/-- The value of a fetched word: the byte at the lower address counts 256 (R54). -/
theorem wordOfBytes_toNat (lower upper : Byte) : (wordOfBytes lower upper).toNat = 256 * lower.toNat + upper.toNat := by
  have h := upper.isLt
  rw [wordOfBytes, BitVec.toNat_append, ← Nat.shiftLeft_add_eq_or_of_lt h, Nat.shiftLeft_eq]
  omega

end Sys2Proof
end

