-- ==== Sys2Proof/Laws/Memory.lean ====
section
/-!
SUPPORT. Sys2Proof/Laws/Memory.lean: a read after a write, and every memory operation keeps the canonical form.
-/
namespace Sys2Proof.Machine

open Sys2Proof (Byte Word Nibble Addr)

/-- A canonical memory from `k` on lists nothing below `k`. -/
theorem Memory.read_below {m : Memory} {lo a : Nat} (h : Memory.wfFrom lo m = true) (ha : a < lo) :
    m.read a = initialByte a := by
  induction m generalizing lo with
  | nil => rfl
  | cons e rest ih =>
    obtain ⟨k, b⟩ := e
    simp only [Memory.wfFrom, Bool.and_eq_true, decide_eq_true_eq] at h
    rw [Memory.read, if_neg (by omega)]
    exact ih h.2 (by omega)

/-- A lower bound may be lowered. -/
theorem Memory.wfFrom_mono {m : Memory} {lo lo' : Nat} (h : Memory.wfFrom lo m = true) (hl : lo' ≤ lo) :
    Memory.wfFrom lo' m = true := by
  cases m with
  | nil => rfl
  | cons e rest =>
    obtain ⟨k, b⟩ := e
    simp only [Memory.wfFrom, Bool.and_eq_true, decide_eq_true_eq] at h ⊢
    exact ⟨⟨⟨by omega, h.1.1.2⟩, h.1.2⟩, h.2⟩

/-- A canonical memory reads, after a write, the written byte at its address and what it read before elsewhere. -/
theorem Memory.read_write_from {m : Memory} {lo : Nat} (h : Memory.wfFrom lo m = true) (a : Nat) (b : Byte) (a' : Nat) :
    (m.write a b).read a' = if a' = a then b else m.read a' := by
  induction m generalizing lo with
  | nil =>
    by_cases hb : b = initialByte a <;> by_cases ha : a' = a <;>
      simp_all [Memory.write, Memory.read, eq_comm (a := a)]
  | cons e rest ih =>
    obtain ⟨k, c⟩ := e
    simp only [Memory.wfFrom, Bool.and_eq_true, decide_eq_true_eq] at h
    rcases Nat.lt_trichotomy a k with hlt | heq | hgt
    · rw [Memory.write, if_pos hlt]
      by_cases hb : b = initialByte a
      · rw [if_pos hb]
        split
        · subst a'
          rw [Memory.read, if_neg (by omega), Memory.read_below h.2 (by omega), hb]
        · rfl
      · rw [if_neg hb, Memory.read]
        simp only [eq_comm (a := a)]
    · subst heq
      rw [Memory.write, if_neg (by omega), if_pos rfl]
      by_cases hb : b = initialByte a
      · rw [if_pos hb]
        split
        · subst a'
          rw [Memory.read_below h.2 (by omega), hb]
        · rw [Memory.read, if_neg (by omega)]
      · rw [if_neg hb, Memory.read]
        split <;> simp_all [Memory.read, eq_comm (a := a)]
    · rw [Memory.write, if_neg (by omega), if_neg (by omega), Memory.read, Memory.read, ih h.2]
      split
      · rw [if_neg (by omega)]
      · rfl

/-- A write keeps the canonical form. -/
theorem Memory.wfFrom_write {m : Memory} {lo : Nat} (h : Memory.wfFrom lo m = true) {a : Nat} (hlo : lo ≤ a)
    (ha : a < 4096) (b : Byte) : Memory.wfFrom lo (m.write a b) = true := by
  induction m generalizing lo with
  | nil =>
    by_cases hb : b = initialByte a <;> simp_all [Memory.write, Memory.wfFrom]
  | cons e rest ih =>
    obtain ⟨k, c⟩ := e
    have h' := h
    simp only [Memory.wfFrom, Bool.and_eq_true, decide_eq_true_eq] at h'
    rcases Nat.lt_trichotomy a k with hlt | heq | hgt
    · rw [Memory.write, if_pos hlt]
      by_cases hb : b = initialByte a
      · rwa [if_pos hb]
      · rw [if_neg hb]
        simp only [Memory.wfFrom, Bool.and_eq_true, decide_eq_true_eq, bne_iff_ne]
        exact ⟨⟨⟨hlo, ha⟩, hb⟩, ⟨⟨by omega, h'.1.1.2⟩, bne_iff_ne.mp h'.1.2⟩, h'.2⟩
    · subst heq
      rw [Memory.write, if_neg (by omega), if_pos rfl]
      by_cases hb : b = initialByte a
      · rw [if_pos hb]
        exact Memory.wfFrom_mono h'.2 (by omega)
      · rw [if_neg hb]
        simp only [Memory.wfFrom, Bool.and_eq_true, decide_eq_true_eq, bne_iff_ne]
        exact ⟨⟨⟨hlo, ha⟩, hb⟩, h'.2⟩
    · rw [Memory.write, if_neg (by omega), if_neg (by omega)]
      simp only [Memory.wfFrom, Bool.and_eq_true, decide_eq_true_eq]
      exact ⟨h'.1, ih h'.2 (by omega)⟩

/-- `Memory.wf` is kept by a write below 4096. -/
theorem Memory.wf_write {m : Memory} (h : m.wf = true) {a : Nat} (ha : a < 4096) (b : Byte) :
    (m.write a b).wf = true := Memory.wfFrom_write h (Nat.zero_le a) ha b

/-- A read after a write, on a canonical memory. -/
theorem Memory.read_write {m : Memory} (h : m.wf = true) (a : Nat) (b : Byte) (a' : Nat) :
    (m.write a b).read a' = if a' = a then b else m.read a' := Memory.read_write_from h a b a'

/-- `MemRead` after `MemWrite` (R53, R57). -/
theorem State.memRead_memWrite {s : State} (h : s.mem.wf = true) (a : Nat) (b : Byte) (a' : Nat) :
    (s.memWrite a b).memRead a' = if a' % 4096 = a % 4096 then b else s.memRead a' :=
  Memory.read_write h _ b _

/-! ## Every memory operation keeps the canonical form -/

theorem State.memWrite_wf {s : State} (h : s.mem.wf = true) (a : Nat) (b : Byte) : (s.memWrite a b).mem.wf = true :=
  Memory.wf_write h (Nat.mod_lt _ (by decide)) b

theorem State.storeBytes_wf {s : State} (h : s.mem.wf = true) (a : Nat) (bs : List Byte) :
    (s.storeBytes a bs).mem.wf = true := by
  induction bs generalizing s a with
  | nil => exact h
  | cons b rest ih => exact ih (State.memWrite_wf h a b) (a + 1)

theorem State.loadImage_wf {s : State} (h : s.mem.wf = true) (image : List Byte) : (s.loadImage image).mem.wf = true :=
  State.storeBytes_wf h _ image

theorem State.hostStore_wf {s : State} (h : s.mem.wf = true) (a : Addr) (b : Byte) :
    (s.hostStore a b).mem.wf = true := State.memWrite_wf h _ b

theorem State.placeWord_wf {s : State} (h : s.mem.wf = true) (w : Word) : (s.placeWord w).mem.wf = true :=
  State.memWrite_wf (State.memWrite_wf h _ _) _ _

theorem State.storeRegs_wf {s : State} (h : s.mem.wf = true) (n : Nat) : (s.storeRegs n).mem.wf = true := by
  induction n with
  | zero => exact h
  | succ k ih => exact State.memWrite_wf ih _ _

/-- The memory of the reset state is canonical. -/
theorem State.reset_wf : State.reset.mem.wf = true := rfl

end Sys2Proof.Machine
end

