-- ==== Sys2Proof/Laws/Ops.lean ====
section
/-!
SUPPORT. Sys2Proof/Laws/Ops.lean: the shared operations written as updates of single fields (Laws/State.lean then says what each
does to every field), and what the block transfers leave alone.
-/
namespace Sys2Proof.Machine

open Sys2Proof (Byte Word Nibble)

/-! ## Operations as updates of single fields -/

theorem State.memWrite_eq (s : State) (a : Nat) (b : Byte) : s.memWrite a b = s.setMem (s.mem.write (a % 4096) b) := rfl
theorem State.advance_eq (s : State) : s.advance = s.setPc (s.pc + 2) := rfl
theorem State.skipIf_eq (s : State) (c : Bool) : s.skipIf c = s.setPc (s.pc + if c then 4 else 2) := rfl
theorem State.push_eq (s : State) (w : Word) :
    s.push w = (s.setSlot (s.sp.setWidth 4) w).setSp (s.sp + 1) := rfl
theorem State.pop_eq (s : State) : s.pop = s.setSp (s.sp - 1) := rfl
theorem State.raise_eq (s : State) (c : DiagCause) :
    s.raise c = (s.setDiag (some ⟨c, s.opcode, s.pc⟩)).setPc (s.pc + 2) := rfl
theorem State.setFlag_eq (s : State) (f : Bool) : s.setFlag f = s.setReg 0xF#4 (if f then 1 else 0) := rfl
theorem State.aluResult_eq (s : State) (x : Nibble) (r : Byte) : s.aluResult x r = (s.setReg x r).setPc (s.pc + 2) := rfl
theorem State.aluResultFlag_eq (s : State) (x : Nibble) (r : Byte) (f : Bool) :
    s.aluResultFlag x r f = ((s.setReg x r).setReg 0xF#4 (if f then 1 else 0)).setPc (s.pc + 2) := rfl
theorem State.beginCycle_eq (s : State) :
    s.beginCycle = ((s.setOpcode s.fetch).setTone false).setDiag none := rfl
theorem State.timerTick_eq (s : State) :
    s.timerTick = ((s.setDt (countDown s.dt)).setTone (s.tone || s.st == 1)).setSt (countDown s.st) := rfl
theorem State.presentInputs_eq (s : State) :
    s.presentInputs = ((s.setKey (Config.hostKeys s.turn)).setRnd (Config.hostRandom s.turn)).setTurn (s.turn + 1) := rfl
theorem State.endCycle_done (s : State) : s.endCycle .done = s.timerTick.presentInputs := rfl
theorem State.endCycle_suspend (s : State) : s.endCycle .suspend = s.presentInputs := rfl

/-- A timer that counts down goes to its predecessor and stays at 0. -/
theorem countDown_toNat (t : Byte) : (countDown t).toNat = t.toNat - 1 := by
  unfold countDown
  split
  · simp_all
  · have : t.toNat ≠ 0 := fun h => by simp_all [BitVec.toNat_eq]
    rw [BitVec.toNat_sub_of_le (by simp [BitVec.le_def]; omega)]
    simp

/-- The outcome of a whole cycle is a next state exactly when the instruction's is, and then the two are related by
`endCycle`. -/
theorem finishCycle_next {r : CycleResult} {o : Host.Outcome State Fault Refusal} {t : State}
    (h : finishCycle r o = .next t) : ∃ u, o = .next u ∧ t = u.endCycle r := by
  cases o with
  | next u => exact ⟨u, rfl, by simpa [finishCycle, eq_comm] using h⟩
  | fault f => cases h
  | refused f => cases h

/-! ## The block transfers -/

/-- A store of registers changes the memory and nothing else. -/
theorem State.storeRegs_eq (s : State) (n : Nat) : s.storeRegs n = s.setMem (s.storeRegs n).mem := by
  induction n with
  | zero => rfl
  | succ k ih =>
    rw [State.storeRegs, ih]
    rfl

@[simp] theorem State.storeRegs_v (s : State) (n : Nat) : (s.storeRegs n).v = s.v := by rw [State.storeRegs_eq]; rfl
@[simp] theorem State.storeRegs_i (s : State) (n : Nat) : (s.storeRegs n).i = s.i := by rw [State.storeRegs_eq]; rfl
@[simp] theorem State.storeRegs_pc (s : State) (n : Nat) : (s.storeRegs n).pc = s.pc := by rw [State.storeRegs_eq]; rfl
@[simp] theorem State.storeRegs_stack (s : State) (n : Nat) : (s.storeRegs n).stack = s.stack := by rw [State.storeRegs_eq]; rfl
@[simp] theorem State.storeRegs_sp (s : State) (n : Nat) : (s.storeRegs n).sp = s.sp := by rw [State.storeRegs_eq]; rfl
@[simp] theorem State.storeRegs_dt (s : State) (n : Nat) : (s.storeRegs n).dt = s.dt := by rw [State.storeRegs_eq]; rfl
@[simp] theorem State.storeRegs_st (s : State) (n : Nat) : (s.storeRegs n).st = s.st := by rw [State.storeRegs_eq]; rfl
@[simp] theorem State.storeRegs_gfx (s : State) (n : Nat) : (s.storeRegs n).gfx = s.gfx := by rw [State.storeRegs_eq]; rfl
@[simp] theorem State.storeRegs_redraw (s : State) (n : Nat) : (s.storeRegs n).redraw = s.redraw := by rw [State.storeRegs_eq]; rfl
@[simp] theorem State.storeRegs_opcode (s : State) (n : Nat) : (s.storeRegs n).opcode = s.opcode := by rw [State.storeRegs_eq]; rfl
@[simp] theorem State.storeRegs_key (s : State) (n : Nat) : (s.storeRegs n).key = s.key := by rw [State.storeRegs_eq]; rfl
@[simp] theorem State.storeRegs_rnd (s : State) (n : Nat) : (s.storeRegs n).rnd = s.rnd := by rw [State.storeRegs_eq]; rfl
@[simp] theorem State.storeRegs_tone (s : State) (n : Nat) : (s.storeRegs n).tone = s.tone := by rw [State.storeRegs_eq]; rfl
@[simp] theorem State.storeRegs_diag (s : State) (n : Nat) : (s.storeRegs n).diag = s.diag := by rw [State.storeRegs_eq]; rfl
@[simp] theorem State.storeRegs_turn (s : State) (n : Nat) : (s.storeRegs n).turn = s.turn := by rw [State.storeRegs_eq]; rfl

/-- A load of registers changes the general registers and nothing else. -/
theorem State.loadRegs_eq (s : State) (n : Nat) : s.loadRegs n = { s with v := (s.loadRegs n).v } := by
  induction n with
  | zero => rfl
  | succ k ih =>
    rw [State.loadRegs, ih]
    rfl

@[simp] theorem State.loadRegs_i (s : State) (n : Nat) : (s.loadRegs n).i = s.i := by rw [State.loadRegs_eq]
@[simp] theorem State.loadRegs_pc (s : State) (n : Nat) : (s.loadRegs n).pc = s.pc := by rw [State.loadRegs_eq]
@[simp] theorem State.loadRegs_stack (s : State) (n : Nat) : (s.loadRegs n).stack = s.stack := by rw [State.loadRegs_eq]
@[simp] theorem State.loadRegs_sp (s : State) (n : Nat) : (s.loadRegs n).sp = s.sp := by rw [State.loadRegs_eq]
@[simp] theorem State.loadRegs_dt (s : State) (n : Nat) : (s.loadRegs n).dt = s.dt := by rw [State.loadRegs_eq]
@[simp] theorem State.loadRegs_st (s : State) (n : Nat) : (s.loadRegs n).st = s.st := by rw [State.loadRegs_eq]
@[simp] theorem State.loadRegs_mem (s : State) (n : Nat) : (s.loadRegs n).mem = s.mem := by rw [State.loadRegs_eq]
@[simp] theorem State.loadRegs_gfx (s : State) (n : Nat) : (s.loadRegs n).gfx = s.gfx := by rw [State.loadRegs_eq]
@[simp] theorem State.loadRegs_redraw (s : State) (n : Nat) : (s.loadRegs n).redraw = s.redraw := by rw [State.loadRegs_eq]
@[simp] theorem State.loadRegs_opcode (s : State) (n : Nat) : (s.loadRegs n).opcode = s.opcode := by rw [State.loadRegs_eq]
@[simp] theorem State.loadRegs_key (s : State) (n : Nat) : (s.loadRegs n).key = s.key := by rw [State.loadRegs_eq]
@[simp] theorem State.loadRegs_rnd (s : State) (n : Nat) : (s.loadRegs n).rnd = s.rnd := by rw [State.loadRegs_eq]
@[simp] theorem State.loadRegs_tone (s : State) (n : Nat) : (s.loadRegs n).tone = s.tone := by rw [State.loadRegs_eq]
@[simp] theorem State.loadRegs_diag (s : State) (n : Nat) : (s.loadRegs n).diag = s.diag := by rw [State.loadRegs_eq]
@[simp] theorem State.loadRegs_turn (s : State) (n : Nat) : (s.loadRegs n).turn = s.turn := by rw [State.loadRegs_eq]

/-- A load of image bytes changes the memory and nothing else. -/
theorem State.storeBytes_eq (s : State) (a : Nat) (bs : List Byte) :
    s.storeBytes a bs = s.setMem (s.storeBytes a bs).mem := by
  induction bs generalizing s a with
  | nil => rfl
  | cons b rest ih =>
    rw [State.storeBytes, ih]
    rfl

/-! ## The keys -/

/-- No key is the lowest exactly when none is pressed. -/
theorem lowestKey_eq_none (key : BitVec 16) : lowestKey key = none ↔ key = 0 := by
  constructor
  · intro h
    ext k hk
    have := List.find?_eq_none.mp h k (List.mem_range.mpr hk)
    simpa [BitVec.getLsbD_eq_getElem hk] using this
  · rintro rfl
    rfl

end Sys2Proof.Machine
end

