-- ==== Sys2Proof/Laws/PerInstr.lean ====
section
/-!
SUPPORT. Sys2Proof/Laws/PerInstr.lean: the family EncodesItsRow. The encoder puts every instruction, with every operand, into its
own row of the opcode map (30_encoding.md R76).
-/
namespace Sys2Proof.Laws

open Sys2Proof (Byte Word Nibble Addr)

/-! ## The four formats under the masks of R76 -/

theorem encodeAddr_family (f : Nibble) (nnn : Addr) : encodeAddr f nnn &&& 0xF000#16 = f ++ 0#12 := by
  apply BitVec.eq_of_getLsbD_eq
  intro k hk
  interval_cases k <;> simp only [encodeAddr, BitVec.getLsbD_and, BitVec.getLsbD_append] <;> simp

theorem encodeRegImm_family (f x : Nibble) (nn : Byte) : encodeRegImm f x nn &&& 0xF000#16 = f ++ 0#12 := by
  apply BitVec.eq_of_getLsbD_eq
  intro k hk
  interval_cases k <;> simp only [encodeRegImm, BitVec.getLsbD_and, BitVec.getLsbD_append] <;> simp

theorem encodeRegReg_family (f x y n : Nibble) : encodeRegReg f x y n &&& 0xF000#16 = f ++ 0#12 := by
  apply BitVec.eq_of_getLsbD_eq
  intro k hk
  interval_cases k <;> simp only [encodeRegReg, BitVec.getLsbD_and, BitVec.getLsbD_append] <;> simp

theorem encodeRegReg_low (f x y n : Nibble) : encodeRegReg f x y n &&& 0xF00F#16 = f ++ (0#8 ++ n) := by
  apply BitVec.eq_of_getLsbD_eq
  intro k hk
  interval_cases k <;> simp only [encodeRegReg, BitVec.getLsbD_and, BitVec.getLsbD_append] <;> simp

theorem encodeRegSub_low (f x : Nibble) (sub : Byte) : encodeRegSub f x sub &&& 0xF0FF#16 = f ++ (0#4 ++ sub) := by
  apply BitVec.eq_of_getLsbD_eq
  intro k hk
  interval_cases k <;> simp only [encodeRegSub, BitVec.getLsbD_and, BitVec.getLsbD_append] <;> simp

/-! ## One lemma per instruction -/

/-- The word of the instruction selects the instruction's row (R76). -/
def EncodesItsRow.Statement (i : Instr) : Prop := (opcodeRow i).selects (encode i) = true

theorem EncodesItsRow.cls : EncodesItsRow.Statement (.cls) := rfl
theorem EncodesItsRow.ret : EncodesItsRow.Statement (.ret) := rfl
theorem EncodesItsRow.jp (nnn : Addr) : EncodesItsRow.Statement (.jp nnn) :=
  beq_iff_eq.mpr ((encodeAddr_family ..).trans rfl)
theorem EncodesItsRow.call (nnn : Addr) : EncodesItsRow.Statement (.call nnn) :=
  beq_iff_eq.mpr ((encodeAddr_family ..).trans rfl)
theorem EncodesItsRow.seImm (x : Nibble) (nn : Byte) : EncodesItsRow.Statement (.seImm x nn) :=
  beq_iff_eq.mpr ((encodeRegImm_family ..).trans rfl)
theorem EncodesItsRow.sneImm (x : Nibble) (nn : Byte) : EncodesItsRow.Statement (.sneImm x nn) :=
  beq_iff_eq.mpr ((encodeRegImm_family ..).trans rfl)
theorem EncodesItsRow.seReg (x : Nibble) (y : Nibble) (n : Nibble) : EncodesItsRow.Statement (.seReg x y n) :=
  beq_iff_eq.mpr ((encodeRegReg_family ..).trans rfl)
theorem EncodesItsRow.ldImm (x : Nibble) (nn : Byte) : EncodesItsRow.Statement (.ldImm x nn) :=
  beq_iff_eq.mpr ((encodeRegImm_family ..).trans rfl)
theorem EncodesItsRow.addImm (x : Nibble) (nn : Byte) : EncodesItsRow.Statement (.addImm x nn) :=
  beq_iff_eq.mpr ((encodeRegImm_family ..).trans rfl)
theorem EncodesItsRow.ldReg (x : Nibble) (y : Nibble) : EncodesItsRow.Statement (.ldReg x y) :=
  beq_iff_eq.mpr ((encodeRegReg_low ..).trans rfl)
theorem EncodesItsRow.orReg (x : Nibble) (y : Nibble) : EncodesItsRow.Statement (.orReg x y) :=
  beq_iff_eq.mpr ((encodeRegReg_low ..).trans rfl)
theorem EncodesItsRow.andReg (x : Nibble) (y : Nibble) : EncodesItsRow.Statement (.andReg x y) :=
  beq_iff_eq.mpr ((encodeRegReg_low ..).trans rfl)
theorem EncodesItsRow.xorReg (x : Nibble) (y : Nibble) : EncodesItsRow.Statement (.xorReg x y) :=
  beq_iff_eq.mpr ((encodeRegReg_low ..).trans rfl)
theorem EncodesItsRow.addReg (x : Nibble) (y : Nibble) : EncodesItsRow.Statement (.addReg x y) :=
  beq_iff_eq.mpr ((encodeRegReg_low ..).trans rfl)
theorem EncodesItsRow.subReg (x : Nibble) (y : Nibble) : EncodesItsRow.Statement (.subReg x y) :=
  beq_iff_eq.mpr ((encodeRegReg_low ..).trans rfl)
theorem EncodesItsRow.shr (x : Nibble) (y : Nibble) : EncodesItsRow.Statement (.shr x y) :=
  beq_iff_eq.mpr ((encodeRegReg_low ..).trans rfl)
theorem EncodesItsRow.subnReg (x : Nibble) (y : Nibble) : EncodesItsRow.Statement (.subnReg x y) :=
  beq_iff_eq.mpr ((encodeRegReg_low ..).trans rfl)
theorem EncodesItsRow.shl (x : Nibble) (y : Nibble) : EncodesItsRow.Statement (.shl x y) :=
  beq_iff_eq.mpr ((encodeRegReg_low ..).trans rfl)
theorem EncodesItsRow.sneReg (x : Nibble) (y : Nibble) (n : Nibble) : EncodesItsRow.Statement (.sneReg x y n) :=
  beq_iff_eq.mpr ((encodeRegReg_family ..).trans rfl)
theorem EncodesItsRow.ldI (nnn : Addr) : EncodesItsRow.Statement (.ldI nnn) :=
  beq_iff_eq.mpr ((encodeAddr_family ..).trans rfl)
theorem EncodesItsRow.jpV0 (nnn : Addr) : EncodesItsRow.Statement (.jpV0 nnn) :=
  beq_iff_eq.mpr ((encodeAddr_family ..).trans rfl)
theorem EncodesItsRow.rnd (x : Nibble) (nn : Byte) : EncodesItsRow.Statement (.rnd x nn) :=
  beq_iff_eq.mpr ((encodeRegImm_family ..).trans rfl)
theorem EncodesItsRow.drw (x : Nibble) (y : Nibble) (n : Nibble) : EncodesItsRow.Statement (.drw x y n) :=
  beq_iff_eq.mpr ((encodeRegReg_family ..).trans rfl)
theorem EncodesItsRow.skp (x : Nibble) : EncodesItsRow.Statement (.skp x) :=
  beq_iff_eq.mpr ((encodeRegSub_low ..).trans rfl)
theorem EncodesItsRow.sknp (x : Nibble) : EncodesItsRow.Statement (.sknp x) :=
  beq_iff_eq.mpr ((encodeRegSub_low ..).trans rfl)
theorem EncodesItsRow.ldVxDt (x : Nibble) : EncodesItsRow.Statement (.ldVxDt x) :=
  beq_iff_eq.mpr ((encodeRegSub_low ..).trans rfl)
theorem EncodesItsRow.ldVxK (x : Nibble) : EncodesItsRow.Statement (.ldVxK x) :=
  beq_iff_eq.mpr ((encodeRegSub_low ..).trans rfl)
theorem EncodesItsRow.ldDtVx (x : Nibble) : EncodesItsRow.Statement (.ldDtVx x) :=
  beq_iff_eq.mpr ((encodeRegSub_low ..).trans rfl)
theorem EncodesItsRow.ldStVx (x : Nibble) : EncodesItsRow.Statement (.ldStVx x) :=
  beq_iff_eq.mpr ((encodeRegSub_low ..).trans rfl)
theorem EncodesItsRow.addI (x : Nibble) : EncodesItsRow.Statement (.addI x) :=
  beq_iff_eq.mpr ((encodeRegSub_low ..).trans rfl)
theorem EncodesItsRow.ldF (x : Nibble) : EncodesItsRow.Statement (.ldF x) :=
  beq_iff_eq.mpr ((encodeRegSub_low ..).trans rfl)
theorem EncodesItsRow.ldB (x : Nibble) : EncodesItsRow.Statement (.ldB x) :=
  beq_iff_eq.mpr ((encodeRegSub_low ..).trans rfl)
theorem EncodesItsRow.ldMemVx (x : Nibble) : EncodesItsRow.Statement (.ldMemVx x) :=
  beq_iff_eq.mpr ((encodeRegSub_low ..).trans rfl)
theorem EncodesItsRow.ldVxMem (x : Nibble) : EncodesItsRow.Statement (.ldVxMem x) :=
  beq_iff_eq.mpr ((encodeRegSub_low ..).trans rfl)

end Sys2Proof.Laws
end

