-- ==== Sys2Proof/Tests/Slice0.lean ====
section
/-!
SUPPORT. Sys2Proof/Tests/Slice0.lean: the model's own tests. Expected results are those of 95_test_vectors.md (the id stands in each
comment) or of the examples in the rules; and for each statement with hypotheses a witness that meets them.
-/
namespace Sys2Proof.Tests

open Sys2Proof Sys2Proof.Machine

/-- What a part of the next state is, if there is one. -/
def after {α : Type} (o : Host.Outcome State Fault Refusal) (f : State → α) : Option α :=
  match o with
  | .next t => some (f t)
  | .fault _ => none
  | .refused _ => none

/-- The reset state with `V[1] = a`, `V[2] = b` and VF = 0x55, as the vectors of 95_test_vectors.md section 2.2 start. -/
def alu (a b : Byte) : State := ((State.reset.setReg 1 a).setReg 2 b).setReg 0xF#4 0x55

/-- `V[1]` and VF. -/
def v1vf (s : State) : Byte × Byte := (s.reg 1, s.reg 0xF#4)

/-- The reset state with a word at 0x200. -/
def at200 (w : Nat) : State := State.reset.withFetchWord 16 w

/-! ## The canonical forms (R78): one ill-formed term for each check -/

theorem test_wf_seReg : (Instr.seReg 1 2 7).wellFormed = false := by decide
theorem test_wf_sneReg : (Instr.sneReg 1 2 1).wellFormed = false := by decide
theorem test_wf_shr : (Instr.shr 1 2).wellFormed = false := by decide
theorem test_wf_shl : (Instr.shl 1 0xF).wellFormed = false := by decide
theorem test_wf_canonical : (Instr.seReg 1 2 0).wellFormed = true ∧ (Instr.shr 1 0).wellFormed = true := by decide

/-! ## Decoding: words written out from the map of R76 -/

theorem test_decode_cls : decodeTableWord 16 0x00E0 = some .cls := by decide
theorem test_decode_ret : decodeTableWord 16 0x00EE = some .ret := by decide
theorem test_decode_jp : decodeTableWord 16 0x1234 = some (.jp 0x234) := by decide
theorem test_decode_call : decodeTableWord 16 0x2208 = some (.call 0x208) := by decide
theorem test_decode_seImm : decodeTableWord 16 0x332A = some (.seImm 3 0x2A) := by decide
theorem test_decode_sneImm : decodeTableWord 16 0x432A = some (.sneImm 3 0x2A) := by decide
theorem test_decode_seReg : decodeTableWord 16 0x5120 = some (.seReg 1 2 0) := by decide
theorem test_decode_seReg_ignored : decodeTableWord 16 0x5127 = some (.seReg 1 2 7) := by decide
theorem test_decode_ldImm : decodeTableWord 16 0x6A3C = some (.ldImm 0xA 0x3C) := by decide
theorem test_decode_addImm : decodeTableWord 16 0x7220 = some (.addImm 2 0x20) := by decide
theorem test_decode_ldReg : decodeTableWord 16 0x8120 = some (.ldReg 1 2) := by decide
theorem test_decode_orReg : decodeTableWord 16 0x8121 = some (.orReg 1 2) := by decide
theorem test_decode_andReg : decodeTableWord 16 0x8122 = some (.andReg 1 2) := by decide
theorem test_decode_xorReg : decodeTableWord 16 0x8123 = some (.xorReg 1 2) := by decide
theorem test_decode_addReg : decodeTableWord 16 0x8124 = some (.addReg 1 2) := by decide
theorem test_decode_subReg : decodeTableWord 16 0x8125 = some (.subReg 1 2) := by decide
theorem test_decode_shr : decodeTableWord 16 0x8106 = some (.shr 1 0) := by decide
theorem test_decode_subnReg : decodeTableWord 16 0x8127 = some (.subnReg 1 2) := by decide
theorem test_decode_shl : decodeTableWord 16 0x810E = some (.shl 1 0) := by decide
theorem test_decode_sneReg : decodeTableWord 16 0x9120 = some (.sneReg 1 2 0) := by decide
theorem test_decode_ldI : decodeTableWord 16 0xA220 = some (.ldI 0x220) := by decide
theorem test_decode_jpV0 : decodeTableWord 16 0xB300 = some (.jpV0 0x300) := by decide
theorem test_decode_rnd : decodeTableWord 16 0xC30F = some (.rnd 3 0x0F) := by decide
theorem test_decode_drw : decodeTableWord 16 0xD013 = some (.drw 0 1 3) := by decide
theorem test_decode_skp : decodeTableWord 16 0xE29E = some (.skp 2) := by decide
theorem test_decode_sknp : decodeTableWord 16 0xE2A1 = some (.sknp 2) := by decide
theorem test_decode_ldVxDt : decodeTableWord 16 0xF307 = some (.ldVxDt 3) := by decide
theorem test_decode_ldVxK : decodeTableWord 16 0xF10A = some (.ldVxK 1) := by decide
theorem test_decode_ldDtVx : decodeTableWord 16 0xF015 = some (.ldDtVx 0) := by decide
theorem test_decode_ldStVx : decodeTableWord 16 0xF518 = some (.ldStVx 5) := by decide
theorem test_decode_addI : decodeTableWord 16 0xF21E = some (.addI 2) := by decide
theorem test_decode_ldF : decodeTableWord 16 0xF429 = some (.ldF 4) := by decide
theorem test_decode_ldB : decodeTableWord 16 0xF033 = some (.ldB 0) := by decide
theorem test_decode_ldMemVx : decodeTableWord 16 0xF255 = some (.ldMemVx 2) := by decide
theorem test_decode_ldVxMem : decodeTableWord 16 0xF265 = some (.ldVxMem 2) := by decide

/-- T75, T138, T151: unknown words of each family. -/
theorem test_decode_unknown :
    [0x0000, 0x00E1, 0x00EF, 0x01E0, 0x0EE0, 0x0123, 0x0FFF, 0x8128, 0x812D, 0x812F, 0xE200, 0xE29F, 0xE2A0, 0xF200,
      0xF208, 0xF2FF, 0xF256].all (fun w => (decodeTableWord 16 w).isNone) = true := by decide

/-- A word goes to its bytes high byte first (T156). -/
theorem test_bytes : (firstByte 0x6A3C#16, secondByte 0x6A3C#16) = (0x6A#8, 0x3C#8) := by decide

/-! ## Memory -/

/-- Writing what the address reads as when unlisted removes the entry. -/
theorem test_mem_canonical :
    ((State.reset.memWrite 0x300 1).memWrite 0x300 0).mem = [] ∧ (State.reset.memWrite 0x050 0xF0).mem = [] := by decide
/-- Out of order, or an entry that says what the address reads as anyway: not canonical. -/
theorem test_mem_not_canonical :
    Memory.wf [(0x301, 1), (0x300, 1)] = false ∧ Memory.wf [(0x300, 0)] = false ∧ Memory.wf [(4096, 1)] = false := by decide
/-- T94: the font of decision D21. -/
theorem test_font : [0x050, 0x051, 0x054, 0x055, 0x09F].map State.reset.memRead = [0xF0, 0x90, 0xF0, 0x20, 0x80] := by
  decide

/-! ## The cycle -/

/-- S3: the word is executed and `pc` advances. -/
theorem test_step_S3 : after (step (at200 0x6A3C)) (fun t => (t.reg 0xA, t.pc, t.opcode)) = some (0x3C, 0x202, 0x6A3C) := by
  decide
/-- T150: the unknown word 0x0000. -/
theorem test_step_T150 :
    after (step (State.reset.setDt 5)) (fun t => (t.diag, t.pc, t.dt)) =
      some (some ⟨.unknownOpcode, 0, 0x200⟩, 0x202, 4) := by decide
/-- T155: the second byte of a fetch at 0xFFF comes from 0x000. -/
theorem test_fetch_T155 : (((State.reset.setPc 0xFFF).memWrite 0xFFF 0x12).memWrite 0 0x34).fetch = 0x1234 := by decide
/-- T22: a skip past 0xFFFF wraps. -/
theorem test_step_T22 :
    after (step ((State.reset.setPc 0xFFFE).withFetchWord 16 0x3000)) (fun t => t.pc) = some 0x0002 := by decide
/-- T120, T122: `FX07` reads before the tick, `FX15` is ticked in its own cycle. -/
theorem test_step_T120 :
    after (step ((at200 0xF307).setDt 0x10)) (fun t => (t.reg 3, t.dt)) = some (0x10, 0x0F) := by decide
theorem test_step_T122 : after (step ((at200 0xF015).setReg 0 3)) (fun t => t.dt) = some 2 := by decide
/-- T125, T126: the tone. -/
theorem test_step_T125 : after (step ((at200 0xF518).setReg 5 1)) (fun t => (t.st, t.tone)) = some (0, true) := by decide
theorem test_step_T126 : after (step ((at200 0xF518).setReg 5 3)) (fun t => (t.st, t.tone)) = some (2, false) := by decide
/-- T133: a suspended cycle does not tick. -/
theorem test_step_T133 :
    after (step (((at200 0xF10A).setDt 9).setSt 1)) (fun t => (t.pc, t.reg 1, t.dt)) = some (0x200, 0, 9) ∧
      after (step (((at200 0xF10A).setDt 9).setSt 1)) (fun t => (t.st, t.tone, t.diag)) = some (1, false, none) := by
  decide
/-- T137: a cycle that gets its key ticks. -/
theorem test_step_T137 :
    after (step (((at200 0xF10A).setDt 9).setKey 0xFFFF)) (fun t => (t.pc, t.reg 1, t.dt)) = some (0x202, 0, 8) := by decide
/-- T10: a return from the empty stack. -/
theorem test_step_T10 :
    after (step (at200 0x00EE)) (fun t => (t.sp, t.pc, t.diag)) = some (0, 0x202, some ⟨.stackUnderflow, 0x00EE, 0x200⟩) := by
  decide

/-! ## Instructions, at most two tests each -/

/-- S5, T100. -/
theorem test_cls_S5 :
    after (exec .cls (State.reset.setGfx (Vector.replicate 2048 true))) (fun t => (t.cell 0, t.cell 99, t.redraw, t.pc)) = some (false, false, true, 0x202) := by decide +kernel
/-- T9. -/
theorem test_ret_T9 :
    after (exec .ret ((State.reset.setSp 1).setSlot 0 0x0202)) (fun t => (t.sp, t.pc, t.slot 0)) = some (0, 0x204, 0x202) := by decide
/-- R105: a slot of 0xFFFF. -/
theorem test_ret_wrap :
    after (exec .ret ((State.reset.setSp 16).setSlot 15 0xFFFF)) (fun t => (t.sp, t.pc)) = some (15, 0x0001) := by decide
/-- T1. -/
theorem test_jp_T1 :
    after (exec (.jp 0x234) State.reset) (fun t => (t.pc, t.sp)) = some (0x0234, 0) := by decide
/-- T7. -/
theorem test_call_T7 :
    after (exec (.call 0x300) ((State.reset.setPc 0x250).setSp 15)) (fun t => (t.slot 15, t.sp, t.pc)) = some (0x0250, 16, 0x0300) := by decide
/-- T8. -/
theorem test_call_T8 :
    after (exec (.call 0x300) (((State.reset.setPc 0x250).setSp 16).setOpcode 0x2300)) (fun t => (t.diag, t.sp, t.pc)) = some (some ⟨.stackOverflow, 0x2300, 0x250⟩, 16, 0x0252) := by decide
/-- T11. -/
theorem test_seImm_T11 :
    after (exec (.seImm 3 0x2A) (State.reset.setReg 3 0x2A)) (fun t => t.pc) = some 0x204 := by decide
/-- T13: all 8 bits are compared. -/
theorem test_seImm_T13 :
    after (exec (.seImm 3 0xAA) (State.reset.setReg 3 0x0A)) (fun t => t.pc) = some 0x202 := by decide
/-- T14. -/
theorem test_sneImm_T14 :
    after (exec (.sneImm 3 0x2A) (State.reset.setReg 3 0x2A)) (fun t => t.pc) = some 0x202 := by decide
/-- T15. -/
theorem test_sneImm_T15 :
    after (exec (.sneImm 3 0x00) (State.reset.setReg 3 0x2A)) (fun t => t.pc) = some 0x204 := by decide
/-- T17. -/
theorem test_seReg_T17 :
    after (exec (.seReg 1 2 0) (alu 7 8)) (fun t => t.pc) = some 0x202 := by decide
/-- T19. -/
theorem test_seReg_T19 :
    after (exec (.seReg 1 2 7) (alu 7 7)) (fun t => t.pc) = some 0x204 := by decide
/-- T20. -/
theorem test_sneReg_T20 :
    after (exec (.sneReg 1 2 0) (alu 7 8)) (fun t => t.pc) = some 0x204 := by decide
/-- T21. -/
theorem test_sneReg_T21 :
    after (exec (.sneReg 1 2 0) (alu 7 7)) (fun t => t.pc) = some 0x202 := by decide
/-- T60. -/
theorem test_ldImm_T60 :
    after (exec (.ldImm 0xF 0x07) State.reset) (fun t => t.reg 0xF#4) = some 0x07 := by decide
/-- T61: no flag. -/
theorem test_addImm_T61 :
    after (exec (.addImm 2 0x20) (alu 0 0xF0)) (fun t => (t.reg 2, t.reg 0xF#4)) = some (0x10, 0x55) := by decide
/-- T30. -/
theorem test_ldReg_T30 :
    after (exec (.ldReg 1 2) (alu 0x11 0x5A)) (v1vf) = some (0x5A, 0x55) := by decide
/-- T31. -/
theorem test_orReg_T31 :
    after (exec (.orReg 1 2) (alu 0x0F 0xF0)) (v1vf) = some (0xFF, 0x55) := by decide
/-- T32. -/
theorem test_andReg_T32 :
    after (exec (.andReg 1 2) (alu 0x3C 0x0F)) (v1vf) = some (0x0C, 0x55) := by decide
/-- T33. -/
theorem test_xorReg_T33 :
    after (exec (.xorReg 1 2) (alu 0xFF 0x0F)) (v1vf) = some (0xF0, 0x55) := by decide
/-- S6, T34. -/
theorem test_addReg_S6 :
    after (exec (.addReg 1 2) (alu 0xFF 0x01)) (v1vf) = some (0x00, 1) := by decide
/-- T65: the flag wins. -/
theorem test_addReg_T65 :
    after (exec (.addReg 0xF 2) ((alu 0 1).setReg 0xF#4 1)) (fun t => t.reg 0xF#4) = some 0 := by decide
/-- T40. -/
theorem test_subReg_T40 :
    after (exec (.subReg 1 2) (alu 0x05 0x07)) (v1vf) = some (0xFE, 0) := by decide
/-- T42. -/
theorem test_subReg_T42 :
    after (exec (.subReg 1 2) (alu 0x07 0x07)) (v1vf) = some (0x00, 1) := by decide
/-- T49. -/
theorem test_shr_T49 :
    after (exec (.shr 1 2) (alu 0x05 0xEE)) (v1vf) = some (0x02, 1) := by decide
/-- T71. -/
theorem test_shr_T71 :
    after (exec (.shr 0xF 0) ((alu 0 0).setReg 0xF#4 2)) (fun t => t.reg 0xF#4) = some 0 := by decide
/-- T45. -/
theorem test_subnReg_T45 :
    after (exec (.subnReg 1 2) (alu 0x05 0x07)) (v1vf) = some (0x02, 1) := by decide
/-- T48. -/
theorem test_subnReg_T48 :
    after (exec (.subnReg 1 2) (alu 0xFF 0x00)) (v1vf) = some (0x01, 0) := by decide
/-- T53. -/
theorem test_shl_T53 :
    after (exec (.shl 1 2) (alu 0x81 0xEE)) (v1vf) = some (0x02, 1) := by decide
/-- T54. -/
theorem test_shl_T54 :
    after (exec (.shl 1 2) (alu 0x7F 0)) (v1vf) = some (0xFE, 0) := by decide
/-- T80. -/
theorem test_ldI_T80 :
    after (exec (.ldI 0xFFF) State.reset) (fun t => (t.i, t.pc)) = some (0x0FFF, 0x202) := by decide
/-- T4. -/
theorem test_jpV0_T4 :
    after (exec (.jpV0 0x300) (State.reset.setReg 0 0x04)) (fun t => t.pc) = some 0x0304 := by decide
/-- T5. -/
theorem test_jpV0_T5 :
    after (exec (.jpV0 0xFFF) (State.reset.setReg 0 0xFF)) (fun t => t.pc) = some 0x10FE := by decide
/-- T72. -/
theorem test_rnd_T72 :
    after (exec (.rnd 3 0x0F) (State.reset.setRnd 0xB7)) (fun t => t.reg 3) = some 0x07 := by decide
/-- T128. -/
theorem test_skp_T128 :
    after (exec (.skp 2) ((alu 0 7).setKey 0x0080)) (fun t => t.pc) = some 0x204 := by decide
/-- T129. -/
theorem test_skp_T129 :
    after (exec (.skp 2) ((alu 0 7).setKey 0xFF7F)) (fun t => t.pc) = some 0x202 := by decide
/-- T131. -/
theorem test_sknp_T131 :
    after (exec (.sknp 2) ((alu 0 7).setKey 0x0080)) (fun t => t.pc) = some 0x202 := by decide
/-- decision D15: 0x17 is key 7. -/
theorem test_sknp_low_nibble :
    after (exec (.sknp 2) ((alu 0 0x17).setKey 0xFF7F)) (fun t => t.pc) = some 0x204 := by decide
/-- T121. -/
theorem test_ldVxDt_T121 :
    after (exec (.ldVxDt 3) (State.reset.setReg 3 9)) (fun t => t.reg 3) = some 0 := by decide
/-- T136. -/
theorem test_ldVxK_T136 :
    after (exec (.ldVxK 1) (State.reset.setKey 0x0480)) (fun t => (t.reg 1, t.pc)) = some (0x07, 0x202) := by decide
/-- T135. -/
theorem test_ldVxK_T135 :
    after (exec (.ldVxK 1) (State.reset.setKey 0x8000)) (fun t => t.reg 1) = some 0x0F := by decide
/-- T82. -/
theorem test_addI_T82 :
    after (exec (.addI 2) ((alu 0 1).setI 0x0FFF)) (fun t => (t.i, t.reg 0xF#4)) = some (0x1000, 0x55) := by decide
/-- T83. -/
theorem test_addI_T83 :
    after (exec (.addI 2) ((alu 0 1).setI 0xFFFF)) (fun t => t.i) = some 0x0000 := by decide
/-- T84. -/
theorem test_ldF_T84 :
    after (exec (.ldF 4) (State.reset.setReg 4 0x0F)) (fun t => t.i) = some 0x009B := by decide
/-- T85. -/
theorem test_ldF_T85 :
    after (exec (.ldF 4) (State.reset.setReg 4 0x1A)) (fun t => t.i) = some 0x0082 := by decide
/-- S9, T86. -/
theorem test_ldB_T86 :
    after (exec (.ldB 0) ((State.reset.setReg 0 254).setI 0x300)) (fun t => ([0x300, 0x301, 0x302].map t.memRead, t.i)) = some ([2, 5, 4], 0x300) := by decide
/-- T87. -/
theorem test_ldB_T87 :
    after (exec (.ldB 0) ((State.reset.setReg 0 123).setI 0xFFF)) (fun t => [0xFFF, 0x000, 0x001].map t.memRead) = some [1, 2, 3] := by decide
/-- T91. -/
theorem test_ldMemVx_T91 :
    after (exec (.ldMemVx 1) (((State.reset.setReg 0 0xA1).setReg 1 0xA2).setI 0xFFF)) (fun t => ([0xFFF, 0x000, 0x001].map t.memRead, t.i)) = some ([0xA1, 0xA2, 0], 0xFFF) := by decide
/-- T92: the font is not protected. -/
theorem test_ldMemVx_T92 :
    after (exec (.ldMemVx 1) (State.reset.setI 0x050)) (fun t => ([0x050, 0x051, 0x052].map t.memRead, t.diag)) = some ([0, 0, 0x90], none) := by decide
/-- T93. -/
theorem test_ldVxMem_T93 :
    after (exec (.ldVxMem 2) ((((State.reset.memWrite 0x300 2).memWrite 0x301 5).setReg 3 0x77).setI 0x300)) (fun t => ([0, 1, 2, 3].map t.reg, t.i)) = some ([2, 5, 0, 0x77], 0x300) := by decide
/-- T94. -/
theorem test_ldVxMem_T94 :
    after (exec (.ldVxMem 4) (State.reset.setI 0x050)) (fun t => [0, 1, 2, 3, 4].map t.reg) = some [0xF0, 0x90, 0x90, 0x90, 0xF0] := by decide
/-- T104: a sprite wraps at the right edge, in the same row. -/
theorem test_drw_T104 :
    after (exec (.drw 0 1 1) ((((State.reset.memWrite 0x300 0xFF).setI 0x300).setReg 0 60).setReg 1 5))
      (fun t => ([319, 320, 323, 324, 379, 380, 383, 384].map (fun k => t.gfx.getD k false), t.reg 0xF#4, t.redraw)) =
      some ([false, true, true, false, false, true, true, false], 0, true) := by decide +kernel
/-- T102 and T110 together: a set cell collides; VF is a coordinate before it is the flag. -/
theorem test_drw_T110 :
    after (exec (.drw 0xF 1 1)
      (((((State.reset.memWrite 0x300 0x80).setI 0x300).setReg 0xF#4 2).setReg 1 1).setGfx
        ((Vector.replicate 2048 false).set 66 true)))
      (fun t => (t.gfx.getD 66 true, t.reg 0xF#4)) = some (false, 1) := by decide +kernel

/-! ## Witnesses: the hypotheses of the statements are met -/

/-- A next state with a property. -/
abbrev Answers (i : Instr) (s : State) (p : State → Prop) : Prop := ∃ t, exec i s = .next t ∧ p t

theorem witness_EncodeInvertsDecode : decode 0x5127#16 = .ok (.seReg 1 2 7) ∧ decode 0xFF65#16 = .ok (.ldVxMem 0xF) := by
  decide
theorem witness_DecodeAgreesWithTheOpcodeMap :
    decode 0x812E#16 = .ok (.shl 1 2) ∧ (∃ r ∈ opcodeMap, r.selects 0x812E#16 = true) ∧
      decode 0x0000#16 = .error (.unknownOpcode 0x0000#16) := by decide
theorem witness_StepRunsTheDecodedInstruction :
    decodeBytes ((at200 0x2208).memRead (at200 0x2208).pc.toNat) ((at200 0x2208).memRead ((at200 0x2208).pc.toNat + 1)) =
      .ok (.call 0x208) := by decide
/-- The faulting case of the same statement is met too. -/
theorem witness_StepRunsTheDecodedInstruction_fault :
    exec (.call 0x208) ((at200 0x2208).setSp 17).beginCycle = .fault (.stackPointerOutOfRange 17) := rfl
theorem witness_UnknownOpcode : ∀ i, decode State.reset.fetch ≠ .ok i := by
  intro i h
  have h0 : decode State.reset.fetch = .error (.unknownOpcode 0) := by decide
  rw [h0] at h
  cases h
theorem witness_AwaitingAKey : (at200 0xF10A).awaitingKey := ⟨⟨1, by decide⟩, by decide⟩
theorem witness_StepKeepsTheInvariant : State.reset.Inv ∧ ∃ t, step State.reset = .next t :=
  ⟨⟨by decide, by decide, by decide, fun _ h => by cases h⟩, _, rfl⟩
/-- The tone clause and the diagnostic clause of the invariant hold of a state that raises both outputs. -/
theorem witness_Inv_outputs :
    (((State.reset.setTone true).setPc 0x202).setDiag (some ⟨.unknownOpcode, 0, 0x200⟩)).Inv :=
  ⟨by decide, by decide, by decide, fun d h => by cases h; decide⟩
theorem witness_StepAlwaysAnswers : (State.reset.setSp 16).sp.toNat ≤ 16 ∧ State.reset.sp.toNat ≤ 16 := by decide
theorem witness_EveryRunGoesOn :
    Reachable State.reset.clearRedraw ∧ Reachable (((State.reset.setTurn 7).hostReset.loadImage [0x12, 0x00]).offer 1 2) :=
  ⟨.clearRedraw _ (.reset _ .start), .offer _ _ _ (.load _ _ (.again _) (by decide))⟩
theorem witness_EveryRunGoesOn_step : ∃ t, Reachable t ∧ t.pc = 0x202 :=
  ⟨_, .step _ _ (.reset _ .start) rfl, by decide⟩
theorem witness_OnlyThreeInstructionsWriteI :
    Answers (.ldI 0x220) State.reset (fun t => t.i ≠ State.reset.i) ∧
    Answers (.addI 1) (alu 1 0) (fun t => t.i ≠ (alu 1 0).i) ∧ Answers (.ldF 0) State.reset (fun t => t.i ≠ State.reset.i) :=
  ⟨⟨_, rfl, by decide⟩, ⟨_, rfl, by decide⟩, ⟨_, rfl, by decide⟩⟩
theorem witness_OnlyCallAndReturnTouchTheStack :
    Answers (.call 0x208) State.reset (fun t => t.slot 0 ≠ State.reset.slot 0 ∧ t.sp ≠ State.reset.sp) ∧
    Answers .ret (State.reset.setSp 1) (fun t => t.sp ≠ (State.reset.setSp 1).sp) :=
  ⟨⟨_, rfl, by decide⟩, ⟨_, rfl, by decide⟩⟩
theorem witness_OnlyClearAndDrawTouchTheDisplay :
    Answers .cls (State.reset.setGfx (Vector.replicate 2048 true))
      (fun t => t.cell 0 ≠ (State.reset.setGfx (Vector.replicate 2048 true)).cell 0 ∧ t.redraw ≠ State.reset.redraw) ∧
    Answers (.drw 0 0 1) (State.reset.setI 0x050)
      (fun t => t.cell 0 ≠ State.reset.cell 0 ∧ t.redraw ≠ State.reset.redraw) :=
  ⟨⟨_, rfl, by decide +kernel⟩, ⟨_, rfl, by decide +kernel⟩⟩
theorem witness_OnlyTheTwoStoresChangeMemory :
    Answers (.ldB 1) ((alu 255 0).setI 0x300) (fun t => t.memRead 0x300 ≠ State.reset.memRead 0x300) ∧
    Answers (.ldMemVx 1) ((alu 255 0).setI 0xFFF) (fun t => t.memRead 0x000 ≠ State.reset.memRead 0x000) :=
  ⟨⟨_, rfl, by decide⟩, ⟨_, rfl, by decide⟩⟩
theorem witness_OnlyTheTimerLoadsWriteTheTimers :
    Answers (.ldDtVx 1) (alu 1 0) (fun t => t.dt ≠ (alu 1 0).dt) ∧ Answers (.ldStVx 1) (alu 1 0) (fun t => t.st ≠ (alu 1 0).st) :=
  ⟨⟨_, rfl, by decide⟩, ⟨_, rfl, by decide⟩⟩
theorem witness_OnlyDestinationsAndTheFlagChange :
    Answers (.addReg 1 2) (alu 1 2) (fun t => t.reg 1 ≠ (alu 1 2).reg 1 ∧ t.reg 0xF#4 ≠ (alu 1 2).reg 0xF#4) ∧
    Answers (.ldVxMem 2) (alu 1 2) (fun t => t.reg 2 ≠ (alu 1 2).reg 2) :=
  ⟨⟨_, rfl, by decide⟩, ⟨_, rfl, by decide⟩⟩
theorem witness_FlagInstructions :
    [Instr.addReg 1 2, .subReg 1 2, .shr 0xF 0, .subnReg 0xF 0xF, .shl 1 0, .drw 0 1 0].all writesFlag = true := by decide
theorem witness_PcAfterEveryInstruction :
    Answers (.seImm 0 0) State.reset (fun t => t.pc = 0x204) ∧ Answers (.ldVxK 0) State.reset (fun t => t.pc = 0x200) :=
  ⟨⟨_, rfl, by decide⟩, ⟨_, rfl, by decide⟩⟩
theorem witness_CallPushesItsOwnAddress : State.reset.sp.toNat < 16 ∧ (State.reset.setSp 15).sp.toNat < 16 := by decide
theorem witness_ReturnGoesPastTheCall :
    (0 < (State.reset.setSp 1).sp.toNat ∧ (State.reset.setSp 1).sp.toNat ≤ 16) ∧
    (0 < (State.reset.setSp 16).sp.toNat ∧ (State.reset.setSp 16).sp.toNat ≤ 16) := by decide
/-- Both hypotheses of the inner statement, met by the state after the call itself. -/
theorem witness_CallThenReturn :
    (State.reset.setSp 15).sp.toNat < 16 ∧ Answers (.call 0x208) (State.reset.setSp 15)
      (fun t => ∃ u : State, u.sp = t.sp ∧ ∀ k, u.slot k = t.slot k) :=
  ⟨by decide, _, rfl, _, rfl, fun _ => rfl⟩
theorem witness_StackFaults : (State.reset.setSp 16).sp.toNat = 16 ∧ State.reset.sp.toNat = 0 := by decide
theorem witness_StackPointerAboveSixteen :
    16 < (State.reset.setSp 17).sp.toNat ∧ 16 < (State.reset.setSp 255).sp.toNat := by decide
/-- The clause `x ≠ 0xF` of the flag instructions and of the double draw. -/
theorem witness_destination_is_not_VF : (0#4 : Nibble) ≠ 0xF#4 ∧ (0xE#4 : Nibble) ≠ 0xF#4 := by decide
/-- The memory premise of the store statements and of the load of an image, with an entry listed. -/
theorem witness_memory_is_canonical : State.reset.mem.wf = true ∧ ((State.reset.memWrite 0xFFF 1).memWrite 0 2).mem.wf = true := by
  decide
/-- The inner clauses of the store statements: a first and a last stored address, and addresses beside them. -/
theorem witness_stored_addresses :
    (State.reset.setI 0xFFE).effAddr 2 = 0x000 ∧ (∀ k, k < 3 → 0x001 % 4096 ≠ (State.reset.setI 0xFFE).effAddr k) ∧
    (∀ k, k ≤ (0xF#4 : Nibble).toNat → 0x310 % 4096 ≠ (State.reset.setI 0x300).effAddr k) := by decide
theorem witness_StoredRegistersComeBack :
    Answers (.ldMemVx 0xF) State.reset (fun t => ∃ u : State, u.mem = t.mem ∧ u.i = t.i) := ⟨_, rfl, _, rfl, rfl⟩
theorem witness_StoredWordIsFetchedNext :
    1 ≤ (1#4 : Nibble).toNat ∧ (State.reset.setI 0x202).i.toNat % 4096 = ((State.reset.setI 0x202).pc.toNat + 2) % 4096 ∧
    ((State.reset.setI 0x1000).setPc 0xFFFE).i.toNat % 4096 = (((State.reset.setI 0x1000).setPc 0xFFFE).pc.toNat + 2) % 4096 := by
  decide
theorem witness_CanonicalMemories :
    Memory.wf [(0x300, 5), (0xFFF, 1)] = true ∧ ∀ a, a < 4096 → Memory.read [(0x300, 5), (0xFFF, 1)] a = Memory.read [(0x300, 5), (0xFFF, 1)] a :=
  ⟨by decide, fun _ _ => rfl⟩
/-- Cell 0 is covered by row 0 of glyph 0 (0xF0) at (0, 0), cell 4 is not, and a lit cell 0 collides. -/
theorem witness_Draw_covered : SpriteCovers (State.reset.setI 0x050) 0 0 1 0 := ⟨0, by decide, 0, by decide, by decide, by decide⟩
theorem witness_Draw_uncovered : ¬ SpriteCovers State.reset 0 0 0 0 := fun ⟨_, h, _⟩ => absurd h (Nat.not_lt_zero _)
theorem witness_Draw_collides :
    ∃ k, SpriteCovers ((State.reset.setI 0x050).setGfx (Vector.replicate 2048 true)) 0 0 1 k ∧
      ((State.reset.setI 0x050).setGfx (Vector.replicate 2048 true)).cell k = true :=
  ⟨0, ⟨0, by decide, 0, by decide, by decide, by decide⟩, by decide +kernel⟩
theorem witness_Draw_does_not_collide :
    ¬ ∃ k, SpriteCovers State.reset 0 0 0 k ∧ State.reset.cell k = true := fun ⟨_, ⟨_, h, _⟩, _⟩ => absurd h (Nat.not_lt_zero _)
theorem witness_TimerLoads :
    decode (at200 0xF007).fetch = .ok (.ldVxDt 0) ∧ decode (at200 0xFF15).fetch = .ok (.ldDtVx 0xF) ∧
      decode (at200 0xF518).fetch = .ok (.ldStVx 5) := by decide
theorem witness_TimersTick : ∃ t, step State.reset = .next t ∧ ¬ State.reset.awaitingKey ∧
    (∀ x, decode State.reset.fetch ≠ .ok (.ldDtVx x)) ∧ (∀ x, decode State.reset.fetch ≠ .ok (.ldStVx x)) :=
  ⟨_, rfl, fun h => absurd h.1 (by decide), by decide, by decide⟩
/-- The encoding clauses: a word of each side of each. -/
theorem witness_encoding_clauses :
    (0x1234#16 &&& 0xF000#16 = 0x1000#16 ∧ fieldNNN 0x1234#16 = 0x234#12) ∧
    (0xA220#16 &&& 0xF000#16 = 0xA000#16 ∧ fieldNNN 0xA220#16 = 0x220#12) ∧
    (0x6A3C#16 &&& 0xF000#16 = 0x6000#16 ∧ fieldX 0x6A3C#16 = 0xA#4 ∧ fieldNN 0x6A3C#16 = 0x3C#8) ∧
    (0xF10A#16 &&& 0xF0FF#16 = 0xF00A#16 ∧ fieldX 0xF10A#16 = 1#4) := by decide
theorem witness_KeyWait : State.reset.key = 0 ∧ (State.reset.setKey 0x8000).key ≠ 0 := by decide
theorem witness_ProgramImage :
    State.reset.mem.wf = true ∧ ([] : List Byte).length ≤ 3584 ∧ (List.replicate 3584 (0 : Byte)).length ≤ 3584 :=
  ⟨rfl, by decide, Nat.le_of_eq List.length_replicate⟩
/-- The inner clauses of the same: a first and a last byte of the image, and the addresses beside a short one. -/
theorem witness_ProgramImage_addresses :
    0 < (List.replicate 3584 (0 : Byte)).length ∧ 3583 < (List.replicate 3584 (0 : Byte)).length ∧
      (0x1FF < 4096 ∧ 0x1FF < 0x200) ∧ (0x202 < 4096 ∧ 0x200 + [(1 : Byte), 2].length ≤ 0x202) := by
  rw [List.length_replicate]; decide

end Sys2Proof.Tests
end

/-! # The load of a program image (20_memory.md R63) -/
section
namespace Sys2Proof.Machine

open Sys2Proof (Byte)

/-- Every byte after a load that does not run over the end of memory: inside the loaded range the byte of the image, outside it
what was there before. -/
theorem State.memRead_storeBytes {s : State} (h : s.mem.wf = true) {a : Nat} {bs : List Byte} (hfit : a + bs.length ≤ 4096)
    {a' : Nat} (ha' : a' < 4096) :
    (s.storeBytes a bs).memRead a' =
      if a ≤ a' ∧ a' < a + bs.length then bs.getD (a' - a) 0 else s.memRead a' := by
  induction bs generalizing s a with
  | nil => rw [if_neg (by rw [List.length_nil]; omega), State.storeBytes]
  | cons b rest ih =>
    rw [List.length_cons] at hfit ⊢
    rw [State.storeBytes, ih (State.memWrite_wf h a b) (by omega), State.memRead_memWrite h, Nat.mod_eq_of_lt ha',
      Nat.mod_eq_of_lt (by omega : a < 4096)]
    rcases Nat.lt_trichotomy a' a with hlt | rfl | hgt
    · rw [if_neg (by omega), if_neg (by omega), if_neg (by omega)]
    · rw [if_neg (by omega), if_pos rfl, if_pos (by omega), Nat.sub_self, List.getD_cons_zero]
    · by_cases hin : a' < a + 1 + rest.length
      · rw [if_pos (by omega), if_pos (by omega), show a' - a = a' - (a + 1) + 1 by omega, List.getD_cons_succ]
      · rw [if_neg (by omega), if_neg (by omega), if_neg (by omega)]

/-- A new memory leaves every other part of the state alone. -/
theorem State.setMem_sameExcept (s : State) (m : Memory) : SameExcept [.mem] s (s.setMem m) := by
  intro p hp
  cases p with
  | mem => exact absurd (List.mem_singleton.mpr rfl) hp
  | regs | stack | gfx => exact fun _ => rfl
  | i | pc | sp | dt | st | redraw | opcode | key | rnd | tone | diag | turn => rfl

theorem State.loadImage_sameExcept (s : State) (image : List Byte) : SameExcept [.mem] s (s.loadImage image) := by
  rw [State.loadImage, State.storeBytes_eq]
  exact State.setMem_sameExcept s _

/-- Every byte after the load of an image that fits into the program range. -/
theorem State.memRead_loadImage {s : State} (h : s.mem.wf = true) {image : List Byte} (hlen : image.length ≤ 3584)
    {a : Nat} (ha : a < 4096) :
    (s.loadImage image).memRead a =
      if 0x200 ≤ a ∧ a < 0x200 + image.length then image.getD (a - 0x200) 0 else s.memRead a :=
  State.memRead_storeBytes h (by rw [Config.progBase]; omega) ha

/-- The program range reads 0 after reset: the font lies below it (R61, R240). -/
theorem State.reset_memRead_program {a : Nat} (hlo : 0x200 ≤ a) (hhi : a < 4096) : State.reset.memRead a = 0 := by
  have hread : State.reset.memRead a = initialByte (a % 4096) := rfl
  rw [hread, Nat.mod_eq_of_lt hhi, initialByte, if_neg (by rw [Config.fontBase, Config.fontSize]; omega)]

/-- Settles O56: every byte after the load is given by `State.memRead_loadImage`, and the load only replaces the memory. -/
theorem programImageIsLoadedAtItsBase : Obligations.ProgramImageIsLoadedAtItsBase := by
  intro s image hwf hlen
  have houtside : ∀ a : Nat, a < 4096 → a < 0x200 ∨ 0x200 + image.length ≤ a →
      (s.loadImage image).memRead a = s.memRead a := by
    intro a ha hout
    rw [State.memRead_loadImage hwf hlen ha, if_neg (by omega)]
  refine ⟨?_, houtside, State.loadImage_sameExcept s image, ?_⟩
  · intro j hj
    rw [State.memRead_loadImage hwf hlen (by omega), if_pos (by omega), Nat.add_sub_cancel_left]
  · rintro rfl a habove ha
    rw [houtside a ha (.inr habove), State.reset_memRead_program (by omega) ha]

end Sys2Proof.Machine
end

/-! # The words of an instruction (30_encoding.md R75, R76) -/
section
namespace Sys2Proof

open Sys2Proof.Laws (encodeAddr_family encodeRegImm_family)

/-! ## The decoder inverts the encoder -/

theorem decode_encode (i : Instr) : decode (encode i) = .ok i := by
  cases i with
  | cls | ret => rfl
  | jp | call | ldI | jpV0 => simp [encode, decode]
  | seImm | sneImm | ldImm | addImm | rnd => simp [encode, decode]
  | seReg | sneReg | drw => simp [encode, decode]
  | ldReg | orReg | andReg | xorReg | addReg | subReg | shr | subnReg | shl => simp [encode, decode, decodeFamily8]
  | skp | sknp => simp [encode, decode, decodeFamilyE]
  | ldVxDt | ldVxK | ldDtVx | ldStVx | addI | ldF | ldB | ldMemVx | ldVxMem => simp [encode, decode, decodeFamilyF]

/-! ## The encoder inverts the decoder, family by family -/

theorem encode_of_decodeFamily0 {ir : Word} {i : Instr} (h : decodeFamily0 ir = .ok i) : encode i = ir := by
  unfold decodeFamily0 at h
  split_ifs at h with hcls hret <;> cases h
  · exact hcls.symm
  · exact hret.symm

theorem encode_of_decodeFamily8 {ir : Word} {i : Instr} (hf : family ir = 0x8#4) (h : decodeFamily8 ir = .ok i) :
    encode i = ir := by
  have hw := encodeRegReg_fields ir
  rw [hf] at hw
  unfold decodeFamily8 at h
  split at h <;> cases h <;> rename_i hn <;> rwa [hn] at hw

theorem encode_of_decodeFamilyE {ir : Word} {i : Instr} (hf : family ir = 0xE#4) (h : decodeFamilyE ir = .ok i) :
    encode i = ir := by
  have hw := encodeRegSub_fields ir
  rw [hf] at hw
  unfold decodeFamilyE at h
  split at h <;> cases h <;> rename_i hn <;> rwa [hn] at hw

theorem encode_of_decodeFamilyF {ir : Word} {i : Instr} (hf : family ir = 0xF#4) (h : decodeFamilyF ir = .ok i) :
    encode i = ir := by
  have hw := encodeRegSub_fields ir
  rw [hf] at hw
  unfold decodeFamilyF at h
  split at h <;> cases h <;> rename_i hn <;> rwa [hn] at hw

/-- A family without a sub-dispatch gives back the word its fields build; the four others have a lemma each. -/
theorem encode_of_decode {ir : Word} {i : Instr} (h : decode ir = .ok i) : encode i = ir := by
  have haddr := encodeAddr_fields ir
  have himm := encodeRegImm_fields ir
  have hreg := encodeRegReg_fields ir
  unfold decode at h
  split at h
  case h_1 => exact encode_of_decodeFamily0 h
  case h_9 hf => exact encode_of_decodeFamily8 hf h
  case h_15 hf => exact encode_of_decodeFamilyE hf h
  case h_16 =>
    have hf : family ir = 0xF#4 := by
      simp only [imp_false] at *
      bv_omega
    exact encode_of_decodeFamilyF hf h
  all_goals
    rename_i hf
    cases h
    rw [hf] at haddr himm hreg
    assumption

theorem decode_eq_ok_iff {ir : Word} {i : Instr} : decode ir = .ok i ↔ encode i = ir :=
  ⟨encode_of_decode, fun h => h ▸ decode_encode i⟩

/-! ## The words of a format, by the mask and the fields of R76 -/

theorem family_of_mask {ir : Word} {f : Nibble} (h : ir &&& 0xF000#16 = f ++ 0#12) : family ir = f := by
  rw [← encodeAddr_fields ir, encodeAddr_family] at h
  calc
    family ir = family (encodeAddr (family ir) 0#12) := (family_encodeAddr ..).symm
    _ = family (encodeAddr f 0#12) := congrArg family h
    _ = f := family_encodeAddr ..

theorem encodeAddr_eq_iff {ir : Word} {f : Nibble} {nnn : Addr} :
    encodeAddr f nnn = ir ↔ ir &&& 0xF000#16 = f ++ 0#12 ∧ fieldNNN ir = nnn := by
  constructor
  · rintro rfl
    exact ⟨encodeAddr_family f nnn, fieldNNN_encodeAddr f nnn⟩
  · rintro ⟨hf, rfl⟩
    rw [← family_of_mask hf, encodeAddr_fields]

theorem encodeRegImm_eq_iff {ir : Word} {f x : Nibble} {nn : Byte} :
    encodeRegImm f x nn = ir ↔ ir &&& 0xF000#16 = f ++ 0#12 ∧ fieldX ir = x ∧ fieldNN ir = nn := by
  constructor
  · rintro rfl
    exact ⟨encodeRegImm_family f x nn, fieldX_encodeRegImm f x nn, fieldNN_encodeRegImm f x nn⟩
  · rintro ⟨hf, rfl, rfl⟩
    rw [← family_of_mask hf, encodeRegImm_fields]

end Sys2Proof
end

/-! # Jumps and skips (40_cycle_and_control_flow.md R104, R108, R109) -/
section
namespace Sys2Proof.Machine

open Sys2Proof (Byte Word Nibble Addr)

/-- A new `pc` leaves every other part of the state alone. -/
theorem State.setPc_sameExcept (s : State) (w : Word) : SameExcept [.pc] s (s.setPc w) := by
  intro p hp
  cases p with
  | pc => exact absurd (List.mem_singleton.mpr rfl) hp
  | regs | stack | gfx | mem => exact fun _ => rfl
  | i | sp | dt | st | redraw | opcode | key | rnd | tone | diag | turn => rfl

theorem State.skipIf_sameExcept (s : State) (c : Bool) : SameExcept [.pc] s (s.skipIf c) :=
  s.setPc_sameExcept _

/-- A skip goes on 4 bytes ahead when its condition holds, else 2 (R102 (b)). -/
theorem State.skipIf_pc (s : State) (c : Bool) : (s.skipIf c).pc = if c then s.pc + 4 else s.pc + 2 := by
  cases c <;> rfl

@[simp] theorem zextAddr_toNat (nnn : Addr) : (zextAddr nnn).toNat = nnn.toNat :=
  BitVec.toNat_setWidth_of_le (by decide)

/-- Settles O31: the words by the inverse of the decoder, the meanings by what a skip does to `pc` and to the rest. -/
theorem immediateSkipsCompareAllEightBits : Obligations.ImmediateSkipsCompareAllEightBits := by
  refine ⟨fun ir x nn => ⟨?_, ?_⟩, fun s x nn => ⟨rfl, rfl, ?_, ?_⟩⟩
  · exact decode_eq_ok_iff.trans encodeRegImm_eq_iff
  · exact decode_eq_ok_iff.trans encodeRegImm_eq_iff
  · refine ⟨s.skipIf (s.reg x == nn), rfl, ?_, s.skipIf_sameExcept _⟩
    simp only [State.skipIf_pc, beq_iff_eq]
  · refine ⟨s.skipIf (s.reg x != nn), rfl, ?_, s.skipIf_sameExcept _⟩
    simp only [State.skipIf_pc, bne_iff_ne, ite_not]

/-- Settles O24: the words by the inverse of the decoder, the target as a number by `zextAddr_toNat`. -/
theorem jumpGoesToItsTarget : Obligations.JumpGoesToItsTarget :=
  ⟨fun _ _ => decode_eq_ok_iff.trans encodeAddr_eq_iff,
    fun s nnn => ⟨rfl, s.setPc (zextAddr nnn), rfl, zextAddr_toNat nnn, s.setPc_sameExcept _⟩⟩

end Sys2Proof.Machine
end

/-! # The arithmetic instructions' results (41_alu.md R133, R134) -/
section
namespace Sys2Proof.Machine

open Sys2Proof (Byte Nibble)

/-! ## Frames compose -/

theorem Part.same_trans {p : Part} {s t u : State} (hst : p.same s t) (htu : p.same t u) : p.same s u := by
  cases p with
  | regs | stack | gfx | mem => exact fun k => (htu k).trans (hst k)
  | i | pc | sp | dt | st | redraw | opcode | key | rnd | tone | diag | turn => exact Eq.trans htu hst

/-- Two operations one after the other leave alone what both leave alone. -/
theorem SameExcept.trans {ps qs : List Part} {s t u : State} (hst : SameExcept ps s t) (htu : SameExcept qs t u) :
    SameExcept (ps ++ qs) s u := fun p hp =>
  Part.same_trans (hst p fun h => hp (List.mem_append_left qs h)) (htu p fun h => hp (List.mem_append_right ps h))

/-! ## A register written, and a result without a flag -/

/-- A register written leaves every part of the state but the registers alone. -/
theorem State.setReg_sameExcept (s : State) (x : Nibble) (b : Byte) : SameExcept [.regs] s (s.setReg x b) := by
  intro p hp
  cases p with
  | regs => exact absurd (List.mem_singleton.mpr rfl) hp
  | stack | gfx | mem => exact fun _ => rfl
  | i | pc | sp | dt | st | redraw | opcode | key | rnd | tone | diag | turn => rfl

theorem State.setReg_regsSameExcept (s : State) (x : Nibble) (b : Byte) : RegsSameExcept [x] s (s.setReg x b) :=
  fun j hj => by rw [State.setReg_reg, if_neg (mt List.mem_singleton.mpr hj)]

theorem State.aluResult_reg_self (s : State) (x : Nibble) (r : Byte) : (s.aluResult x r).reg x = r :=
  s.setReg_reg_self x r

theorem State.aluResult_pc (s : State) (x : Nibble) (r : Byte) : (s.aluResult x r).pc = s.pc + 2 := rfl

theorem State.aluResult_regsSameExcept (s : State) (x : Nibble) (r : Byte) : RegsSameExcept [x] s (s.aluResult x r) :=
  s.setReg_regsSameExcept x r

theorem State.aluResult_sameExcept (s : State) (x : Nibble) (r : Byte) : SameExcept [.regs, .pc] s (s.aluResult x r) :=
  (s.setReg_sameExcept x r).trans (State.setPc_sameExcept _ _)

/-- Settles O33: the words by the inverse of the decoder, the meanings by what a result without a flag writes and leaves
alone; the sum modulo 256 is the byte addition. -/
theorem immediateLoadAndAdd : Obligations.ImmediateLoadAndAdd := by
  refine ⟨fun ir x nn => ⟨?_, ?_⟩, fun s x nn => ⟨rfl, rfl, ?_, ?_⟩⟩
  · exact decode_eq_ok_iff.trans encodeRegImm_eq_iff
  · exact decode_eq_ok_iff.trans encodeRegImm_eq_iff
  · exact ⟨s.aluResult x nn, rfl, s.aluResult_reg_self x nn, s.aluResult_regsSameExcept x nn, s.aluResult_pc x nn,
      s.aluResult_sameExcept x nn⟩
  · have hsum : ((s.aluResult x (s.reg x + nn)).reg x).toNat = ((s.reg x).toNat + nn.toNat) % 256 := by
      rw [State.aluResult_reg_self, BitVec.toNat_add]
    exact ⟨s.aluResult x (s.reg x + nn), rfl, hsum, s.aluResult_regsSameExcept x _, s.aluResult_pc x _,
      s.aluResult_sameExcept x _⟩

end Sys2Proof.Machine
end

/-! # The address register (42_index_and_memory.md R160) -/
section
namespace Sys2Proof.Machine

open Sys2Proof (Word)

/-- The address register written leaves every other part of the state alone. -/
theorem State.setI_sameExcept (s : State) (w : Word) : SameExcept [.i] s (s.setI w) := by
  intro p hp
  cases p with
  | i => exact absurd (List.mem_singleton.mpr rfl) hp
  | regs | stack | gfx | mem => exact fun _ => rfl
  | pc | sp | dt | st | redraw | opcode | key | rnd | tone | diag | turn => rfl

/-- The result of the instructions that write the address register and go on 2 bytes ahead. -/
theorem State.setI_advance_sameExcept (s : State) (w : Word) : SameExcept [.i, .pc] s (s.setI w).advance :=
  (s.setI_sameExcept w).trans (State.setPc_sameExcept _ _)

/-- Settles O38: the words by the inverse of the decoder, the address as a number by `zextAddr_toNat`. -/
theorem loadAddressRegister : Obligations.LoadAddressRegister :=
  ⟨fun _ _ => decode_eq_ok_iff.trans encodeAddr_eq_iff,
    fun s nnn => ⟨rfl, (s.setI (zextAddr nnn)).advance, rfl, zextAddr_toNat nnn, rfl, s.setI_advance_sameExcept _⟩⟩

end Sys2Proof.Machine
end

/-! # The display (43_display.md R182) -/
section
namespace Sys2Proof.Machine

/-- A new display leaves every other part of the state alone. -/
theorem State.setGfx_sameExcept (s : State) (g : Vector Bool 2048) : SameExcept [.gfx] s (s.setGfx g) := by
  intro p hp
  cases p with
  | gfx => exact absurd (List.mem_singleton.mpr rfl) hp
  | regs | stack | mem => exact fun _ => rfl
  | i | pc | sp | dt | st | redraw | opcode | key | rnd | tone | diag | turn => rfl

/-- The redraw flag written leaves every other part of the state alone. -/
theorem State.setRedraw_sameExcept (s : State) (b : Bool) : SameExcept [.redraw] s (s.setRedraw b) := by
  intro p hp
  cases p with
  | redraw => exact absurd (List.mem_singleton.mpr rfl) hp
  | regs | stack | gfx | mem => exact fun _ => rfl
  | i | pc | sp | dt | st | opcode | key | rnd | tone | diag | turn => rfl

/-- The result of an instruction that replaces the display, reports it and goes on 2 bytes ahead. -/
theorem State.setGfx_setRedraw_advance_sameExcept (s : State) (g : Vector Bool 2048) (b : Bool) :
    SameExcept [.gfx, .redraw, .pc] s ((s.setGfx g).setRedraw b).advance :=
  ((s.setGfx_sameExcept g).trans (State.setRedraw_sameExcept _ b)).trans (State.setPc_sameExcept _ _)

@[simp] theorem blankDisplay_getElem (k : Fin 2048) : blankDisplay[k.val] = false :=
  Vector.getElem_replicate k.isLt

theorem exec_cls (s : State) : exec .cls s = .next ((s.setGfx blankDisplay).setRedraw true).advance := rfl

/-- Settles O46: the word by the inverse of the decoder; the cleared cells by `blankDisplay_getElem`, whatever the display
held before. -/
theorem clearClearsEveryCell : Obligations.ClearClearsEveryCell := by
  refine ⟨fun ir => ?_, fun s => ⟨rfl, _, exec_cls s, fun k => ?_, rfl, rfl, s.setGfx_setRedraw_advance_sameExcept _ _⟩⟩
  · exact decode_eq_ok_iff.trans eq_comm
  · exact (s.setGfx_cell blankDisplay k).trans (blankDisplay_getElem k)

end Sys2Proof.Machine
end

/-! # Waiting for a key (44_timers_and_keys.md R200) -/
section
namespace Sys2Proof

/-- The words of format `REG_SUB` (R72) by the mask 0xF0FF of R76. -/
theorem encodeRegSub_eq_iff {ir : Word} {f x : Nibble} {sub : Byte} :
    encodeRegSub f x sub = ir ↔ ir &&& 0xF0FF#16 = f ++ (0#4 ++ sub) ∧ fieldX ir = x := by
  constructor
  · rintro rfl
    exact ⟨Laws.encodeRegSub_low f x sub, fieldX_encodeRegSub f x sub⟩
  · rintro ⟨hmask, rfl⟩
    have hword : encodeRegSub (family ir) 0 (fieldNN ir) = encodeRegSub f 0 sub := by
      rwa [← encodeRegSub_fields ir, Laws.encodeRegSub_low] at hmask
    have hf : family ir = f := by simpa using congrArg family hword
    have hsub : fieldNN ir = sub := by simpa using congrArg fieldNN hword
    rw [← hf, ← hsub, encodeRegSub_fields]

end Sys2Proof

namespace Sys2Proof.Machine

open Sys2Proof (Nibble)

/-! ## Nothing changed -/

theorem Part.same_refl (p : Part) (s : State) : p.same s s := by
  cases p with
  | regs | stack | gfx | mem => exact fun _ => rfl
  | i | pc | sp | dt | st | redraw | opcode | key | rnd | tone | diag | turn => rfl

theorem SameExcept.refl (ps : List Part) (s : State) : SameExcept ps s s := fun p _ => p.same_refl s

/-! ## The lowest key -/

/-- The lowest key is one of the 16, it is pressed, and none below it is. -/
theorem lowestKey_eq_some {key : BitVec 16} {k : Nat} :
    lowestKey key = some k ↔ key.getLsbD k = true ∧ k < 16 ∧ ∀ j, j < k → key.getLsbD j = false := by
  simp [lowestKey, List.find?_range_eq_some]

/-- A key is the lowest as soon as one is pressed. -/
theorem exists_lowestKey {key : BitVec 16} (h : key ≠ 0) : ∃ k, lowestKey key = some k :=
  Option.ne_none_iff_exists'.mp (mt (lowestKey_eq_none key).mp h)

/-! ## The two ways of the instruction -/

theorem exec_ldVxK_of_no_key {s : State} (h : s.key = 0) (x : Nibble) : exec (.ldVxK x) s = .next s := by
  rw [exec, execLdVxK, (lowestKey_eq_none s.key).mpr h]

theorem exec_ldVxK_of_lowestKey {s : State} {k : Nat} (h : lowestKey s.key = some k) (x : Nibble) :
    exec (.ldVxK x) s = .next (s.aluResult x (BitVec.ofNat 8 k)) := by
  rw [exec, execLdVxK, h]
  rfl

theorem cycleResult_ldVxK_of_no_key {s : State} (h : s.key = 0) (x : Nibble) : cycleResult (.ldVxK x) s = .suspend :=
  if_pos h

theorem cycleResult_ldVxK_of_key {s : State} (h : s.key ≠ 0) (x : Nibble) : cycleResult (.ldVxK x) s = .done :=
  if_neg h

/-! ## The timers over the end of a cycle -/

@[simp] theorem State.endCycle_suspend_dt (s : State) : (s.endCycle .suspend).dt = s.dt := rfl
@[simp] theorem State.endCycle_suspend_st (s : State) : (s.endCycle .suspend).st = s.st := rfl
theorem State.endCycle_done_dt_toNat (s : State) : (s.endCycle .done).dt.toNat = s.dt.toNat - 1 := countDown_toNat s.dt
theorem State.endCycle_done_st_toNat (s : State) : (s.endCycle .done).st.toNat = s.st.toNat - 1 := countDown_toNat s.st

/-- Settles O55: the words by the inverse of the decoder; with no key pressed the state is the one before, else the result
is that of an instruction without a flag, whose byte is the lowest key. -/
theorem keyWaitTakesTheLowestKey : Obligations.KeyWaitTakesTheLowestKey := by
  refine ⟨fun ir x => decode_eq_ok_iff.trans encodeRegSub_eq_iff, fun s x => ⟨fun hnone => ?_, fun hsome => ?_⟩⟩
  · rw [cycleResult_ldVxK_of_no_key hnone]
    exact ⟨s, exec_ldVxK_of_no_key hnone x, SameExcept.refl [] s, rfl, s.endCycle_suspend_dt, s.endCycle_suspend_st⟩
  · obtain ⟨k, hk⟩ := exists_lowestKey hsome
    obtain ⟨hpressed, hlt, hleast⟩ := lowestKey_eq_some.mp hk
    have hreg : ((s.aluResult x (BitVec.ofNat 8 k)).reg x).toNat = k := by
      rw [State.aluResult_reg_self, BitVec.toNat_ofNat, Nat.mod_eq_of_lt (by omega)]
    rw [cycleResult_ldVxK_of_key hsome]
    refine ⟨s.aluResult x (BitVec.ofNat 8 k), exec_ldVxK_of_lowestKey hk x, ?_, ?_, s.aluResult_regsSameExcept x _,
      s.aluResult_pc x _, s.aluResult_sameExcept x _, rfl, State.endCycle_done_dt_toNat _,
      State.endCycle_done_st_toNat _⟩
    · rwa [hreg]
    · rwa [hreg]

end Sys2Proof.Machine
end

/-! # The timers over a number of ticks (60_exceptions.md R225, R227) -/
section
namespace Sys2Proof.Machine

@[simp] theorem State.timerTick_st (s : State) : s.timerTick.st = countDown s.st := rfl
@[simp] theorem State.timerTick_tone (s : State) : s.timerTick.tone = (s.tone || s.st == 1) := rfl

theorem ticks_succ (n : Nat) (s : State) : ticks (n + 1) s = ((ticks n s).setTone false).timerTick := rfl

theorem ticks_st_toNat (s : State) (n : Nat) : (ticks n s).st.toNat = s.st.toNat - n := by
  induction n with
  | zero => rfl
  | succ n ih => rw [ticks_succ, State.timerTick_st, State.setTone_st, countDown_toNat, ih, Nat.sub_sub]

/-- The pulse goes inactive before each tick, so only the value of `st` before the last one decides (R225). -/
theorem ticks_succ_tone (s : State) (n : Nat) : (ticks (n + 1) s).tone = true ↔ (ticks n s).st.toNat = 1 := by
  rw [ticks_succ, State.timerTick_tone, State.setTone_tone, State.setTone_st, Bool.false_or, beq_iff_eq,
    ← BitVec.toNat_inj]
  rfl

/-- Settles O53: after `n` ticks `st` holds what is left of its value, and that is 1 exactly when the value was `n + 1`. -/
theorem toneSoundsOnceAtTheEnd : Obligations.ToneSoundsOnceAtTheEnd := by
  intro s n
  rw [ticks_succ_tone, ticks_st_toNat]
  omega

end Sys2Proof.Machine
end

/-! # The two round trips of the encoding (30_encoding.md sections 1 to 4) -/
section
namespace Sys2Proof

/-- Settles O2: the decoder reads back the fields each format lays out. -/
theorem decodeInvertsEncode : Obligations.DecodeInvertsEncode := decode_encode

/-- Settles O3: each family gives back the word its fields build. -/
theorem encodeInvertsDecode : Obligations.EncodeInvertsDecode := fun _ _ => encode_of_decode

end Sys2Proof
end

/-! # What an instruction may change (10_state.md sections 1 to 9) -/
section
namespace Sys2Proof.Machine

open Sys2Proof (Byte Word Nibble Addr)

/-! ## Frames of the operations not covered so far -/

/-- A longer list of exceptions is a weaker frame. -/
theorem SameExcept.mono {ps qs : List Part} {s t : State} (h : SameExcept ps s t) (hsub : ps ⊆ qs) :
    SameExcept qs s t := fun p hp => h p fun hmem => hp (hsub hmem)

theorem State.setSlot_sameExcept (s : State) (k : Nibble) (w : Word) : SameExcept [.stack] s (s.setSlot k w) := by
  intro p hp
  cases p with
  | stack => exact absurd (List.mem_singleton.mpr rfl) hp
  | regs | gfx | mem => exact fun _ => rfl
  | i | pc | sp | dt | st | redraw | opcode | key | rnd | tone | diag | turn => rfl

theorem State.setSp_sameExcept (s : State) (b : Byte) : SameExcept [.sp] s (s.setSp b) := by
  intro p hp
  cases p with
  | sp => exact absurd (List.mem_singleton.mpr rfl) hp
  | regs | stack | gfx | mem => exact fun _ => rfl
  | i | pc | dt | st | redraw | opcode | key | rnd | tone | diag | turn => rfl

theorem State.setDt_sameExcept (s : State) (b : Byte) : SameExcept [.dt] s (s.setDt b) := by
  intro p hp
  cases p with
  | dt => exact absurd (List.mem_singleton.mpr rfl) hp
  | regs | stack | gfx | mem => exact fun _ => rfl
  | i | pc | sp | st | redraw | opcode | key | rnd | tone | diag | turn => rfl

theorem State.setSt_sameExcept (s : State) (b : Byte) : SameExcept [.st] s (s.setSt b) := by
  intro p hp
  cases p with
  | st => exact absurd (List.mem_singleton.mpr rfl) hp
  | regs | stack | gfx | mem => exact fun _ => rfl
  | i | pc | sp | dt | redraw | opcode | key | rnd | tone | diag | turn => rfl

/-- A diagnostic raised changes the diagnostic outputs and `pc` (R215, R222). -/
theorem State.raise_sameExcept (s : State) (c : DiagCause) : SameExcept [.pc, .diag] s (s.raise c) := by
  intro p hp
  cases p with
  | pc | diag => simp at hp
  | regs | stack | gfx | mem => exact fun _ => rfl
  | i | sp | dt | st | redraw | opcode | key | rnd | tone | turn => rfl

theorem State.setFlag_sameExcept (s : State) (f : Bool) : SameExcept [.regs] s (s.setFlag f) :=
  s.setReg_sameExcept _ _

theorem State.aluResultFlag_sameExcept (s : State) (x : Nibble) (r : Byte) (f : Bool) :
    SameExcept [.regs, .pc] s (s.aluResultFlag x r f) :=
  (((s.setReg_sameExcept x r).trans (State.setFlag_sameExcept _ f)).trans (State.setPc_sameExcept _ _)).mono
    (by decide)

theorem State.memWrite_sameExcept (s : State) (a : Nat) (b : Byte) : SameExcept [.mem] s (s.memWrite a b) :=
  s.setMem_sameExcept _

theorem State.storeRegs_sameExcept (s : State) (n : Nat) : SameExcept [.mem] s (s.storeRegs n) := by
  rw [State.storeRegs_eq]
  exact s.setMem_sameExcept _

theorem State.loadRegs_sameExcept (s : State) (n : Nat) : SameExcept [.regs] s (s.loadRegs n) := by
  induction n with
  | zero => exact SameExcept.refl _ s
  | succ k ih => exact (ih.trans (State.setReg_sameExcept _ _ _)).mono (by decide)

/-! ## Call and return: the three ways of each (R105, R106, R217, R218) -/

theorem exec_call_of_lt {s : State} (h : s.sp.toNat < 16) (nnn : Addr) :
    exec (.call nnn) s = .next ((s.push s.pc).setPc (zextAddr nnn)) := if_pos h

theorem exec_call_of_full {s : State} (h : s.sp.toNat = 16) (nnn : Addr) :
    exec (.call nnn) s = .next (s.raise .stackOverflow) := by
  rw [exec, execCall, if_neg (Nat.not_lt.mpr h.ge), if_pos h]

theorem exec_call_of_gt {s : State} (h : 16 < s.sp.toNat) (nnn : Addr) :
    exec (.call nnn) s = .fault (.stackPointerOutOfRange s.sp) := by
  rw [exec, execCall, if_neg (Nat.not_lt.mpr h.le), if_neg h.ne']

theorem exec_ret_of_empty {s : State} (h : s.sp = 0) : exec .ret s = .next (s.raise .stackUnderflow) := if_pos h

theorem exec_ret_of_pos {s : State} (hpos : 0 < s.sp.toNat) (hle : s.sp.toNat ≤ 16) :
    exec .ret s = .next (s.pop.setPc (s.top + 2)) := by
  rw [exec, execRet, if_neg (by bv_omega), if_pos hle]

theorem exec_ret_of_gt {s : State} (h : 16 < s.sp.toNat) :
    exec .ret s = .fault (.stackPointerOutOfRange s.sp) := by
  rw [exec, execRet, if_neg (by bv_omega), if_neg (Nat.not_le.mpr h)]

/-- A call that answers found a free slot or raised its diagnostic. -/
theorem exec_call_next {s t : State} {nnn : Addr} (h : exec (.call nnn) s = .next t) :
    (s.sp.toNat < 16 ∧ t = (s.push s.pc).setPc (zextAddr nnn)) ∨ (s.sp.toNat = 16 ∧ t = s.raise .stackOverflow) := by
  rcases Nat.lt_trichotomy s.sp.toNat 16 with hlt | heq | hgt
  · rw [exec_call_of_lt hlt] at h
    cases h
    exact .inl ⟨hlt, rfl⟩
  · rw [exec_call_of_full heq] at h
    cases h
    exact .inr ⟨heq, rfl⟩
  · rw [exec_call_of_gt hgt] at h
    cases h

/-- A return that answers raised its diagnostic or found a slot in use. -/
theorem exec_ret_next {s t : State} (h : exec .ret s = .next t) :
    (s.sp = 0 ∧ t = s.raise .stackUnderflow) ∨
      (0 < s.sp.toNat ∧ s.sp.toNat ≤ 16 ∧ t = s.pop.setPc (s.top + 2)) := by
  by_cases hz : s.sp = 0
  · rw [exec_ret_of_empty hz] at h
    cases h
    exact .inl ⟨hz, rfl⟩
  · have hpos : 0 < s.sp.toNat := by bv_omega
    rcases le_or_gt s.sp.toNat 16 with hle | hgt
    · rw [exec_ret_of_pos hpos hle] at h
      cases h
      exact .inr ⟨hpos, hle, rfl⟩
    · rw [exec_ret_of_gt hgt] at h
      cases h

/-! ## The key wait -/

/-- A key wait changes nothing with no key pressed, and else writes one register. -/
theorem exec_ldVxK_next {s t : State} {x : Nibble} (h : exec (.ldVxK x) s = .next t) :
    (s.key = 0 ∧ t = s) ∨ ∃ b, t = s.aluResult x b := by
  by_cases hkey : s.key = 0
  · rw [exec_ldVxK_of_no_key hkey] at h
    cases h
    exact .inl ⟨hkey, rfl⟩
  · obtain ⟨k, hk⟩ := exists_lowestKey hkey
    rw [exec_ldVxK_of_lowestKey hk] at h
    cases h
    exact .inr ⟨_, rfl⟩

/-! ## The frame of every instruction -/

/-- The parts of the state an instruction may change. -/
def writtenParts : Instr → List Part
  | .cls => [.gfx, .redraw, .pc]
  | .ret => [.sp, .pc, .diag]
  | .call _ => [.stack, .sp, .pc, .diag]
  | .jp _ | .jpV0 _ | .seImm _ _ | .sneImm _ _ | .seReg _ _ _ | .sneReg _ _ _ | .skp _ | .sknp _ => [.pc]
  | .ldImm _ _ | .addImm _ _ | .rnd _ _ | .ldReg _ _ | .orReg _ _ | .andReg _ _ | .xorReg _ _ => [.regs, .pc]
  | .addReg _ _ | .subReg _ _ | .shr _ _ | .subnReg _ _ | .shl _ _ => [.regs, .pc]
  | .ldVxDt _ | .ldVxK _ | .ldVxMem _ => [.regs, .pc]
  | .ldI _ | .addI _ | .ldF _ => [.i, .pc]
  | .drw _ _ _ => [.gfx, .regs, .redraw, .pc]
  | .ldDtVx _ => [.dt, .pc]
  | .ldStVx _ => [.st, .pc]
  | .ldB _ | .ldMemVx _ => [.mem, .pc]

/-- Every instruction leaves alone all parts but those it may change: the one place where the frames of the 34 meanings are
read off. -/
theorem exec_sameExcept {i : Instr} {s t : State} (h : exec i s = .next t) : SameExcept (writtenParts i) s t := by
  cases i with
  | ret =>
    rcases exec_ret_next h with ⟨-, rfl⟩ | ⟨-, -, rfl⟩
    · exact (s.raise_sameExcept _).mono (by decide)
    · exact ((s.setSp_sameExcept _).trans (State.setPc_sameExcept _ _)).mono (by decide)
  | call nnn =>
    rcases exec_call_next h with ⟨-, rfl⟩ | ⟨-, rfl⟩
    · exact (((s.setSlot_sameExcept _ _).trans (State.setSp_sameExcept _ _)).trans
        (State.setPc_sameExcept _ _)).mono (by simp [writtenParts])
    · exact (s.raise_sameExcept _).mono (by simp [writtenParts])
  | ldVxK x =>
    rcases exec_ldVxK_next h with ⟨-, rfl⟩ | ⟨b, rfl⟩
    · exact SameExcept.refl _ _
    · exact s.aluResult_sameExcept x b
  | cls => cases h; exact s.setGfx_setRedraw_advance_sameExcept _ _
  | jp | jpV0 | seImm | sneImm | seReg | sneReg | skp | sknp => cases h; exact s.setPc_sameExcept _
  | ldImm | addImm | rnd | ldReg | orReg | andReg | xorReg | ldVxDt => cases h; exact s.aluResult_sameExcept _ _
  | addReg | subReg | shr | subnReg | shl => cases h; exact s.aluResultFlag_sameExcept _ _ _
  | ldI | addI | ldF => cases h; exact s.setI_advance_sameExcept _
  | drw =>
    cases h
    exact (((s.setGfx_sameExcept _).trans (State.setFlag_sameExcept _ _)).trans
      (State.setRedraw_sameExcept _ _)).trans (State.setPc_sameExcept _ _)
  | ldDtVx => cases h; exact (s.setDt_sameExcept _).trans (State.setPc_sameExcept _ _)
  | ldStVx => cases h; exact (s.setSt_sameExcept _).trans (State.setPc_sameExcept _ _)
  | ldB =>
    cases h
    exact ((((s.memWrite_sameExcept _ _).trans (State.memWrite_sameExcept _ _ _)).trans
      (State.memWrite_sameExcept _ _ _)).trans (State.setPc_sameExcept _ _)).mono (by simp [writtenParts])
  | ldMemVx => cases h; exact (s.storeRegs_sameExcept _).trans (State.setPc_sameExcept _ _)
  | ldVxMem => cases h; exact (s.loadRegs_sameExcept _).trans (State.setPc_sameExcept _ _)

/-! ## Which instruction writes which part -/

/-- A part that differs after an instruction is one the instruction may change. -/
theorem mem_writtenParts_of_not_same {i : Instr} {s t : State} (h : exec i s = .next t) {p : Part}
    (hp : ¬ p.same s t) : p ∈ writtenParts i := by
  by_contra hnot
  exact hp (exec_sameExcept h p hnot)

theorem i_mem_writtenParts {i : Instr} :
    Part.i ∈ writtenParts i ↔ (∃ nnn, i = .ldI nnn) ∨ (∃ x, i = .addI x) ∨ (∃ x, i = .ldF x) := by
  cases i <;> simp [writtenParts]

theorem stack_mem_writtenParts {i : Instr} : Part.stack ∈ writtenParts i ↔ ∃ nnn, i = .call nnn := by
  cases i <;> simp [writtenParts]

theorem sp_mem_writtenParts {i : Instr} : Part.sp ∈ writtenParts i ↔ i = .ret ∨ ∃ nnn, i = .call nnn := by
  cases i <;> simp [writtenParts]

theorem diag_mem_writtenParts {i : Instr} : Part.diag ∈ writtenParts i ↔ i = .ret ∨ ∃ nnn, i = .call nnn := by
  cases i <;> simp [writtenParts]

theorem gfx_mem_writtenParts {i : Instr} : Part.gfx ∈ writtenParts i ↔ i = .cls ∨ ∃ x y n, i = .drw x y n := by
  cases i <;> simp [writtenParts]

theorem redraw_mem_writtenParts {i : Instr} : Part.redraw ∈ writtenParts i ↔ i = .cls ∨ ∃ x y n, i = .drw x y n := by
  cases i <;> simp [writtenParts]

theorem mem_mem_writtenParts {i : Instr} :
    Part.mem ∈ writtenParts i ↔ (∃ x, i = .ldB x) ∨ (∃ x, i = .ldMemVx x) := by
  cases i <;> simp [writtenParts]

theorem dt_mem_writtenParts {i : Instr} : Part.dt ∈ writtenParts i ↔ ∃ x, i = .ldDtVx x := by
  cases i <;> simp [writtenParts]

theorem st_mem_writtenParts {i : Instr} : Part.st ∈ writtenParts i ↔ ∃ x, i = .ldStVx x := by
  cases i <;> simp [writtenParts]

theorem tone_not_written (i : Instr) : Part.tone ∉ writtenParts i := by cases i <;> simp [writtenParts]
theorem opcode_not_written (i : Instr) : Part.opcode ∉ writtenParts i := by cases i <;> simp [writtenParts]
theorem key_not_written (i : Instr) : Part.key ∉ writtenParts i := by cases i <;> simp [writtenParts]
theorem rnd_not_written (i : Instr) : Part.rnd ∉ writtenParts i := by cases i <;> simp [writtenParts]
theorem turn_not_written (i : Instr) : Part.turn ∉ writtenParts i := by cases i <;> simp [writtenParts]

/-! ## Stops -/

/-- Every instruction answers a next state when `sp` is at most 16 (R25, R219). -/
theorem exists_exec_next {s : State} (h : s.sp.toNat ≤ 16) (i : Instr) : ∃ t, exec i s = .next t := by
  cases i with
  | call nnn =>
    rcases Nat.lt_or_eq_of_le h with hlt | heq
    · exact ⟨_, exec_call_of_lt hlt nnn⟩
    · exact ⟨_, exec_call_of_full heq nnn⟩
  | ret =>
    by_cases hz : s.sp = 0
    · exact ⟨_, exec_ret_of_empty hz⟩
    · exact ⟨_, exec_ret_of_pos (by bv_omega) h⟩
  | _ => exact ⟨_, rfl⟩

end Sys2Proof.Machine
end

/-! # One cycle, and the invariant it keeps (40_cycle_and_control_flow.md section 1, 60_exceptions.md) -/
section
namespace Sys2Proof.Machine

open Sys2Proof (Byte Word Nibble Addr)

/-! ## The phases of a cycle and what they leave alone -/

theorem State.beginCycle_sameExcept (s : State) : SameExcept [.opcode, .tone, .diag] s s.beginCycle := by
  intro p hp
  cases p with
  | opcode | tone | diag => simp at hp
  | regs | stack | gfx | mem => exact fun _ => rfl
  | i | pc | sp | dt | st | redraw | key | rnd | turn => rfl

theorem State.timerTick_sameExcept (s : State) : SameExcept [.dt, .st, .tone] s s.timerTick := by
  intro p hp
  cases p with
  | dt | st | tone => simp at hp
  | regs | stack | gfx | mem => exact fun _ => rfl
  | i | pc | sp | redraw | opcode | key | rnd | diag | turn => rfl

theorem State.presentInputs_sameExcept (s : State) : SameExcept [.key, .rnd, .turn] s s.presentInputs := by
  intro p hp
  cases p with
  | key | rnd | turn => simp at hp
  | regs | stack | gfx | mem => exact fun _ => rfl
  | i | pc | sp | dt | st | redraw | opcode | tone | diag => rfl

theorem State.endCycle_done_sameExcept (s : State) :
    SameExcept [.dt, .st, .tone, .key, .rnd, .turn] s (s.endCycle .done) :=
  s.timerTick_sameExcept.trans s.timerTick.presentInputs_sameExcept

@[simp] theorem State.beginCycle_tone (s : State) : s.beginCycle.tone = false := rfl
@[simp] theorem State.beginCycle_pc (s : State) : s.beginCycle.pc = s.pc := rfl
@[simp] theorem State.beginCycle_dt (s : State) : s.beginCycle.dt = s.dt := rfl
@[simp] theorem State.beginCycle_st (s : State) : s.beginCycle.st = s.st := rfl
@[simp] theorem State.beginCycle_mem (s : State) : s.beginCycle.mem = s.mem := rfl
@[simp] theorem State.beginCycle_reg (s : State) (x : Nibble) : s.beginCycle.reg x = s.reg x := rfl

/-- Both ends of a cycle touch the timers, the tone and the inputs only. -/
theorem State.endCycle_sameExcept (s : State) (r : CycleResult) :
    SameExcept [.dt, .st, .tone, .key, .rnd, .turn] s (s.endCycle r) := by
  cases r with
  | done => exact s.endCycle_done_sameExcept
  | suspend => exact s.presentInputs_sameExcept.mono (by decide)

@[simp] theorem State.endCycle_pc (s : State) (r : CycleResult) : (s.endCycle r).pc = s.pc :=
  s.endCycle_sameExcept r .pc (by decide)
@[simp] theorem State.endCycle_sp (s : State) (r : CycleResult) : (s.endCycle r).sp = s.sp :=
  s.endCycle_sameExcept r .sp (by decide)
@[simp] theorem State.endCycle_diag (s : State) (r : CycleResult) : (s.endCycle r).diag = s.diag :=
  s.endCycle_sameExcept r .diag (by decide)
@[simp] theorem State.endCycle_opcode (s : State) (r : CycleResult) : (s.endCycle r).opcode = s.opcode :=
  s.endCycle_sameExcept r .opcode (by decide)
@[simp] theorem State.endCycle_reg (s : State) (r : CycleResult) (x : Nibble) : (s.endCycle r).reg x = s.reg x :=
  s.endCycle_sameExcept r .regs (by decide) x
/-- The list that holds the memory is the same one, which the frame, said of reads, does not tell. -/
@[simp] theorem State.endCycle_mem (s : State) (r : CycleResult) : (s.endCycle r).mem = s.mem := by
  cases r <;> simp only [State.endCycle_done, State.endCycle_suspend, State.presentInputs_eq, State.timerTick_eq,
    State.setTurn_mem, State.setRnd_mem, State.setKey_mem, State.setSt_mem, State.setTone_mem, State.setDt_mem]

@[simp] theorem State.endCycle_suspend_tone (s : State) : (s.endCycle .suspend).tone = s.tone := rfl

/-- The tone is raised when `st` is exactly 1 before its decrement (R225, R227). -/
theorem State.endCycle_done_tone (s : State) : (s.endCycle .done).tone = true ↔ s.tone = true ∨ s.st.toNat = 1 := by
  have hone : s.st = 1 ↔ s.st.toNat = 1 := BitVec.toNat_inj.symm
  rw [← hone, ← beq_iff_eq (a := s.st), ← Bool.or_eq_true]
  exact Iff.rfl

/-! ## A step -/

theorem step_of_decode {s : State} {i : Instr} (h : decode s.fetch = .ok i) :
    step s = finishCycle (cycleResult i s.beginCycle) (exec i s.beginCycle) := by
  rw [step, h]

theorem step_of_exec {s t : State} {i : Instr} (hd : decode s.fetch = .ok i) (he : exec i s.beginCycle = .next t) :
    step s = .next (t.endCycle (cycleResult i s.beginCycle)) := by
  rw [step_of_decode hd, he, finishCycle]

theorem step_of_exec_done {s t : State} {i : Instr} (hd : decode s.fetch = .ok i) (he : exec i s.beginCycle = .next t)
    (hdone : cycleResult i s.beginCycle = .done) : step s = .next (t.endCycle .done) :=
  hdone ▸ step_of_exec hd he

theorem step_of_unknown {s : State} (h : ∀ i, decode s.fetch ≠ .ok i) : step s = .next s.unknownCycle := by
  rw [step]
  split
  · rfl
  · next i hi => exact absurd hi (h i)

/-- What a step can do: the cycle of an unknown word, or the instruction between the two ends of a cycle. -/
theorem step_next {s t : State} (h : step s = .next t) :
    ((∀ i, decode s.fetch ≠ .ok i) ∧ t = s.unknownCycle) ∨
      ∃ i u, decode s.fetch = .ok i ∧ exec i s.beginCycle = .next u ∧ t = u.endCycle (cycleResult i s.beginCycle) := by
  by_cases hd : ∃ i, decode s.fetch = .ok i
  · obtain ⟨i, hi⟩ := hd
    rw [step_of_decode hi] at h
    obtain ⟨u, hu, ht⟩ := finishCycle_next h
    exact .inr ⟨i, u, hi, hu, ht⟩
  · have hd := not_exists.mp hd
    rw [step_of_unknown hd] at h
    cases h
    exact .inl ⟨hd, rfl⟩

/-! ## What execution keeps of the invariant -/

theorem exec_keeps_wf {i : Instr} {s t : State} (h : exec i s = .next t) (hwf : s.mem.wf = true) :
    t.mem.wf = true := by
  cases i with
  | ldB =>
    cases h
    exact State.memWrite_wf (State.memWrite_wf (State.memWrite_wf hwf _ _) _ _) _ _
  | ldMemVx =>
    cases h
    exact State.storeRegs_wf hwf _
  | ldVxMem =>
    cases h
    rwa [State.advance_eq, State.setPc_mem, State.loadRegs_mem]
  | call => rcases exec_call_next h with ⟨-, rfl⟩ | ⟨-, rfl⟩ <;> exact hwf
  | ret => rcases exec_ret_next h with ⟨-, rfl⟩ | ⟨-, -, rfl⟩ <;> exact hwf
  | ldVxK => rcases exec_ldVxK_next h with ⟨-, rfl⟩ | ⟨b, rfl⟩ <;> exact hwf
  | _ => cases h; exact hwf

/-- The stack pointer stays in range: a call moves it up from below 16, a return down from above 0, nothing else moves it. -/
theorem exec_keeps_sp_le {i : Instr} {s t : State} (h : exec i s = .next t) (hsp : s.sp.toNat ≤ 16) :
    t.sp.toNat ≤ 16 := by
  by_cases hpart : Part.sp ∈ writtenParts i
  · rcases sp_mem_writtenParts.mp hpart with rfl | ⟨nnn, rfl⟩
    · rcases exec_ret_next h with ⟨-, rfl⟩ | ⟨hpos, -, rfl⟩
      · exact hsp
      · rw [State.setPc_sp, State.pop_eq, State.setSp_sp]
        bv_omega
    · rcases exec_call_next h with ⟨hlt, rfl⟩ | ⟨-, rfl⟩
      · rw [State.setPc_sp, State.push_eq, State.setSp_sp]
        bv_omega
      · exact hsp
  · have hsame : t.sp = s.sp := exec_sameExcept h .sp hpart
    rwa [hsame]

/-- A diagnostic raised by the execution names the latched word and the address execution goes on from, by 2. -/
theorem exec_diag {i : Instr} {s t : State} (h : exec i s = .next t) (hnone : s.diag = none) {d : Diag}
    (hd : t.diag = some d) : d.ir = s.opcode ∧ t.pc = d.pc + 2 := by
  have hraise : ∀ c, t = s.raise c → d.ir = s.opcode ∧ t.pc = d.pc + 2 := by
    rintro c rfl
    cases hd
    exact ⟨rfl, rfl⟩
  have hdiff : t.diag ≠ s.diag := by rw [hd, hnone]; exact Option.some_ne_none d
  by_cases hpart : Part.diag ∈ writtenParts i
  · rcases diag_mem_writtenParts.mp hpart with rfl | ⟨nnn, rfl⟩
    · rcases exec_ret_next h with ⟨-, ht⟩ | ⟨-, -, rfl⟩
      · exact hraise _ ht
      · exact absurd rfl hdiff
    · rcases exec_call_next h with ⟨-, rfl⟩ | ⟨-, ht⟩
      · exact absurd rfl hdiff
      · exact hraise _ ht
  · exact absurd (exec_sameExcept h .diag hpart) hdiff

/-! ## The invariant -/

/-- The end of a cycle makes the invariant out of what the execution leaves: no tone yet, and any diagnostic precise. -/
theorem State.endCycle_inv {u : State} (r : CycleResult) (hwf : u.mem.wf = true) (hsp : u.sp.toNat ≤ 16)
    (htone : u.tone = false) (hdiag : ∀ d : Diag, u.diag = some d → d.ir = u.opcode ∧ u.pc = d.pc + 2) :
    (u.endCycle r).Inv := by
  refine ⟨by rwa [State.endCycle_mem], by rwa [State.endCycle_sp], fun ht => ?_, ?_⟩
  · cases r with
    | suspend => rw [State.endCycle_suspend_tone, htone] at ht; cases ht
    | done =>
      rcases u.endCycle_done_tone.mp ht with h | hone
      · rw [htone] at h; cases h
      · apply BitVec.eq_of_toNat_eq
        rw [State.endCycle_done_st_toNat, hone]
        rfl
  · rwa [State.endCycle_diag, State.endCycle_opcode, State.endCycle_pc]

theorem step_keeps_inv {s t : State} (hinv : s.Inv) (h : step s = .next t) : t.Inv := by
  obtain ⟨hwf, hsp, -, -⟩ := hinv
  rcases step_next h with ⟨-, rfl⟩ | ⟨i, u, -, hexec, rfl⟩
  · rw [State.unknownCycle]
    have hmem : (s.beginCycle.raise .unknownOpcode).mem = s.mem := by
      rw [State.raise_eq, State.setPc_mem, State.setDiag_mem, State.beginCycle_mem]
    have hsame : (s.beginCycle.raise .unknownOpcode).sp = s.sp :=
      s.beginCycle.raise_sameExcept _ .sp (by decide)
    refine State.endCycle_inv .done (by rwa [hmem]) (by rwa [hsame]) rfl ?_
    rintro d hd
    cases hd
    exact ⟨rfl, rfl⟩
  · have htone : u.tone = false := exec_sameExcept hexec .tone (tone_not_written i)
    have hopcode : u.opcode = s.beginCycle.opcode := exec_sameExcept hexec .opcode (opcode_not_written i)
    refine State.endCycle_inv _ (exec_keeps_wf hexec hwf) (exec_keeps_sp_le hexec hsp) htone fun d hd => ?_
    rw [hopcode]
    exact exec_diag hexec rfl hd

/-- Settles O11: the execution keeps memory, `sp` and the diagnostic right, the end of the cycle the tone. -/
theorem stepKeepsTheInvariant : Obligations.StepKeepsTheInvariant := fun _ _ => step_keeps_inv

end Sys2Proof.Machine
end

/-! # Whole cycles (40_cycle_and_control_flow.md section 1, 60_exceptions.md, 70_reset_and_hazards.md) -/
section
namespace Sys2Proof.Machine

open Sys2Proof (Byte Word Nibble Addr)

/-- Settles O6: the bytes at `pc` are the fetched word, and `step_of_decode` says the rest. -/
theorem stepRunsTheDecodedInstruction : Obligations.StepRunsTheDecodedInstruction := by
  intro s i h
  rw [step_of_decode h]
  cases exec i s.beginCycle <;> rfl

/-- Settles O7: the latched word is the two bytes, the more significant first. -/
theorem cycleBeginsWithTheFetchedWord : Obligations.CycleBeginsWithTheFetchedWord :=
  fun s => ⟨wordOfBytes_toNat _ _, rfl, rfl, s.beginCycle_sameExcept⟩

/-- Settles O8: the tick counts both timers down; a suspended cycle only gets its next inputs. -/
theorem cycleEndsWithTheTimerTick : Obligations.CycleEndsWithTheTimerTick := fun s =>
  ⟨s.endCycle_done_dt_toNat, s.endCycle_done_st_toNat, s.endCycle_done_tone, s.endCycle_done_sameExcept,
    s.presentInputs_sameExcept⟩

/-! ## The cycle of an unknown word -/

theorem State.unknownCycle_sameExcept (s : State) :
    SameExcept [.pc, .opcode, .dt, .st, .tone, .diag, .key, .rnd, .turn] s s.unknownCycle :=
  ((s.beginCycle_sameExcept.trans (State.raise_sameExcept _ .unknownOpcode)).trans
    (State.endCycle_done_sameExcept _)).mono (by decide)

theorem State.unknownCycle_diag (s : State) : s.unknownCycle.diag = some ⟨.unknownOpcode, s.fetch, s.pc⟩ :=
  State.endCycle_diag _ _

theorem State.unknownCycle_tone (s : State) : s.unknownCycle.tone = true ↔ s.st.toNat = 1 := by
  have htone : (s.beginCycle.raise .unknownOpcode).tone = false := State.raise_sameExcept _ _ .tone (by decide)
  have hst : (s.beginCycle.raise .unknownOpcode).st = s.st := State.raise_sameExcept _ _ .st (by decide)
  rw [State.unknownCycle, State.endCycle_done_tone, htone, hst]
  simp

theorem State.unknownCycle_dt_toNat (s : State) : s.unknownCycle.dt.toNat = s.dt.toNat - 1 := by
  have hdt : (s.beginCycle.raise .unknownOpcode).dt = s.dt := State.raise_sameExcept _ _ .dt (by decide)
  rw [State.unknownCycle, State.endCycle_done_dt_toNat, hdt]

theorem State.unknownCycle_st_toNat (s : State) : s.unknownCycle.st.toNat = s.st.toNat - 1 := by
  have hst : (s.beginCycle.raise .unknownOpcode).st = s.st := State.raise_sameExcept _ _ .st (by decide)
  rw [State.unknownCycle, State.endCycle_done_st_toNat, hst]

theorem State.unknownCycle_pc (s : State) : s.unknownCycle.pc = s.pc + 2 := State.endCycle_pc _ _
theorem State.unknownCycle_opcode (s : State) : s.unknownCycle.opcode = s.fetch := State.endCycle_opcode _ _

/-- Settles O9: an unknown word is answered by `State.unknownCycle`. -/
theorem unknownOpcodeIsReportedAndSteppedOver : Obligations.UnknownOpcodeIsReportedAndSteppedOver := by
  intro s h
  have hdiag := s.unknownCycle_diag
  refine ⟨s.unknownCycle, step_of_unknown h, hdiag, ?_, ?_, s.unknownCycle_pc, s.unknownCycle_opcode,
    s.unknownCycle_dt_toNat, s.unknownCycle_st_toNat, s.unknownCycle_tone, s.unknownCycle_sameExcept⟩
  · rw [State.diagValid, hdiag, Option.isSome_some]
  · rw [State.diagCode, hdiag]
    rfl

/-! ## The cycle of a key wait -/

/-- The fetched word depends on the memory and `pc` only. -/
theorem State.fetch_congr {s t : State} (hpc : t.pc = s.pc) (hmem : ∀ a, t.memRead a = s.memRead a) :
    t.fetch = s.fetch := by
  rw [State.fetch, State.fetch, hpc, hmem, hmem]

theorem step_of_awaitingKey {s : State} (h : s.awaitingKey) : step s = .next s.beginCycle.presentInputs := by
  obtain ⟨⟨x, hx⟩, hkey⟩ := h
  have hkey : s.beginCycle.key = 0 := hkey
  rw [step_of_exec hx (exec_ldVxK_of_no_key hkey x), cycleResult_ldVxK_of_no_key hkey, State.endCycle_suspend]

/-- Settles O10: the suspended cycle latches the word and gets its next inputs. -/
theorem awaitingAKeyChangesOnlyTheOpcodeLatch : Obligations.AwaitingAKeyChangesOnlyTheOpcodeLatch := by
  intro s h
  have hframe := s.beginCycle_sameExcept.trans s.beginCycle.presentInputs_sameExcept
  exact ⟨_, step_of_awaitingKey h, rfl, rfl, rfl,
    State.fetch_congr (hframe .pc (by decide)) (hframe .mem (by decide)), hframe⟩

/-! ## The machine runs on -/

theorem exists_step_next {s : State} (h : s.sp.toNat ≤ 16) : ∃ t, step s = .next t := by
  by_cases hd : ∃ i, decode s.fetch = .ok i
  · obtain ⟨i, hi⟩ := hd
    obtain ⟨t, ht⟩ := exists_exec_next (s := s.beginCycle) h i
    exact ⟨_, step_of_exec hi ht⟩
  · exact ⟨_, step_of_unknown (not_exists.mp hd)⟩

/-- Settles O13: an unknown word is stepped over, and every instruction answers while `sp` is in range. -/
theorem stepAlwaysAnswersANextState : Obligations.StepAlwaysAnswersANextState := fun _ => exists_step_next

/-! ## Reset, the host's actions, and runs -/

/-- Settles O12: nothing is listed, in use or raised. -/
theorem resetMeetsTheInvariant : Obligations.ResetMeetsTheInvariant :=
  ⟨State.reset_wf, Nat.zero_le _, fun h => Bool.noConfusion h, fun _ h => by cases h⟩

theorem JustReset.inv {s : State} (h : JustReset s) : s.Inv := by
  cases h with
  | start => exact resetMeetsTheInvariant
  | again s => exact resetMeetsTheInvariant

theorem State.loadImage_eq (s : State) (image : List Byte) : s.loadImage image = s.setMem (s.loadImage image).mem :=
  s.storeBytes_eq _ image

theorem State.loadImage_inv {s : State} (h : s.Inv) (image : List Byte) : (s.loadImage image).Inv := by
  obtain ⟨hwf, hrest⟩ := h
  have hwf' := State.loadImage_wf hwf image
  rw [State.loadImage_eq] at hwf' ⊢
  exact ⟨hwf', hrest⟩

theorem Reachable.inv {s : State} (h : Reachable s) : s.Inv := by
  induction h with
  | reset s h => exact h.inv
  | load s image h hl => exact State.loadImage_inv h.inv image
  | offer s key rnd h ih => exact ih
  | clearRedraw s h ih => exact ih
  | step s t h hs ih => exact step_keeps_inv ih hs

/-- Settles O14: the invariant holds at reset and is kept by steps and by the host, and it bounds `sp`. -/
theorem everyRunGoesOn : Obligations.EveryRunGoesOn := by
  intro s h
  obtain ⟨hwf, hsp, hrest⟩ := h.inv
  exact ⟨⟨hwf, hsp, hrest⟩, exists_step_next hsp⟩

/-- Memory after reset: the font at its place, 0 elsewhere (R61, R62, R240). -/
theorem State.reset_memRead {a : Nat} (ha : a < 4096) :
    State.reset.memRead a = if 0x050 ≤ a ∧ a < 0x0A0 then fontTable.getD (a - 0x050) 0 else 0 := by
  have hread : State.reset.memRead a = initialByte (a % 4096) := rfl
  rw [hread, Nat.mod_eq_of_lt ha, initialByte]
  rfl

/-- Settles O15: the fields of `State.reset`, its registers and cells read one by one. -/
theorem resetLeavesTheStatedValues : Obligations.ResetLeavesTheStatedValues :=
  ⟨fun x => Vector.getElem_replicate x.isLt, rfl, rfl, fun k => Vector.getElem_replicate k.isLt, rfl, rfl, rfl,
    fun _ => State.reset_memRead, fun k => Vector.getElem_replicate k.isLt, rfl, rfl, rfl, rfl⟩

/-! ## The timers over whole cycles and over ticks -/

@[simp] theorem State.timerTick_dt (s : State) : s.timerTick.dt = countDown s.dt := rfl

theorem ticks_dt_toNat (s : State) (n : Nat) : (ticks n s).dt.toNat = s.dt.toNat - n := by
  induction n with
  | zero => rfl
  | succ n ih => rw [ticks_succ, State.timerTick_dt, State.setTone_dt, countDown_toNat, ih, Nat.sub_sub]

theorem State.setTone_sameExcept (s : State) (b : Bool) : SameExcept [.tone] s (s.setTone b) := by
  intro p hp
  cases p with
  | tone => exact absurd (List.mem_singleton.mpr rfl) hp
  | regs | stack | gfx | mem => exact fun _ => rfl
  | i | pc | sp | dt | st | redraw | opcode | key | rnd | diag | turn => rfl

theorem ticks_sameExcept (s : State) (n : Nat) : SameExcept [.dt, .st, .tone] s (ticks n s) := by
  induction n with
  | zero => exact SameExcept.refl _ s
  | succ n ih => exact ((ih.trans (State.setTone_sameExcept _ _)).trans (State.timerTick_sameExcept _)).mono (by decide)

/-- Settles O52: each tick takes 1 from each timer and touches nothing else but the tone. -/
theorem timersCountTicks : Obligations.TimersCountTicks := fun s n =>
  ⟨ticks_dt_toNat s n, ticks_st_toNat s n, ticks_sameExcept s n⟩

theorem exec_ldVxDt (x : Nibble) (s : State) : exec (.ldVxDt x) s = .next (s.aluResult x s.dt) := rfl
theorem exec_ldDtVx (x : Nibble) (s : State) : exec (.ldDtVx x) s = .next (s.setDt (s.reg x)).advance := rfl
theorem exec_ldStVx (x : Nibble) (s : State) : exec (.ldStVx x) s = .next (s.setSt (s.reg x)).advance := rfl

/-- Settles O50: the execution copies the byte, the end of the cycle ticks. -/
theorem timerLoadsTickInTheirOwnCycle : Obligations.TimerLoadsTickInTheirOwnCycle := by
  intro s x
  refine ⟨fun h => ⟨_, step_of_exec_done h (exec_ldVxDt x _) rfl, ?_⟩,
    fun h => ⟨_, step_of_exec_done h (exec_ldDtVx x _) rfl, ?_⟩,
    fun h => ⟨_, step_of_exec_done h (exec_ldStVx x _) rfl, ?_⟩⟩
  all_goals
    simp [State.endCycle_done_dt_toNat, State.endCycle_done_st_toNat, State.endCycle_done_tone, State.aluResult_eq,
      State.advance_eq]

/-- Every instruction but a key wait with no key ends its cycle with the tick (R100, R201). -/
theorem cycleResult_done {i : Instr} {s : State} (h : ∀ x, i = .ldVxK x → s.key ≠ 0) : cycleResult i s = .done := by
  cases i with
  | ldVxK x => exact cycleResult_ldVxK_of_key (h x rfl) x
  | _ => rfl

/-- Settles O51: the tick follows every execution but the suspended one, and finds the timers as they were unless the
instruction is the load of one of them. -/
theorem timersTickInEveryCycleThatDoesNotSuspend : Obligations.TimersTickInEveryCycleThatDoesNotSuspend := by
  intro s t h hkey
  rcases step_next h with ⟨-, rfl⟩ | ⟨i, u, hdec, hexec, rfl⟩
  · exact ⟨fun _ => s.unknownCycle_dt_toNat, fun _ => ⟨s.unknownCycle_st_toNat, s.unknownCycle_tone⟩⟩
  · have hdone : cycleResult i s.beginCycle = .done := by
      refine cycleResult_done ?_
      rintro x rfl hzero
      exact hkey ⟨⟨x, hdec⟩, hzero⟩
    have htone : u.tone = false := exec_sameExcept hexec .tone (tone_not_written i)
    rw [hdone]
    refine ⟨fun hne => ?_, fun hne => ?_⟩
    · have hdt : u.dt = s.beginCycle.dt :=
        exec_sameExcept hexec .dt (mt dt_mem_writtenParts.mp fun ⟨x, hx⟩ => hne x (hx ▸ hdec))
      rw [State.endCycle_done_dt_toNat, hdt, State.beginCycle_dt]
    · have hst : u.st = s.beginCycle.st :=
        exec_sameExcept hexec .st (mt st_mem_writtenParts.mp fun ⟨x, hx⟩ => hne x (hx ▸ hdec))
      rw [State.endCycle_done_st_toNat, State.endCycle_done_tone, hst, State.beginCycle_st, htone]
      simp

end Sys2Proof.Machine
end

/-! # The decoder and the opcode map (30_encoding.md R75 to R77) -/
section
namespace Sys2Proof

open Sys2Proof.Laws (encodeRegReg_family encodeRegReg_low)

/-! ## The fields as numbers -/

theorem family_toNat (ir : Word) : (family ir).toNat = ir.toNat / 4096 := by
  rw [family, BitVec.extractLsb'_toNat, Nat.shiftRight_eq_div_pow, Nat.mod_eq_of_lt (by omega)]

theorem fieldN_toNat (ir : Word) : (fieldN ir).toNat = ir.toNat % 16 := BitVec.extractLsb'_toNat 0 4 ir

theorem fieldNN_toNat (ir : Word) : (fieldNN ir).toNat = ir.toNat % 256 := BitVec.extractLsb'_toNat 0 8 ir

/-! ## A word selects the row of its instruction, and a row that selects a word has an instruction for it -/

theorem encodeRegReg_eq_iff {ir : Word} {f x y n : Nibble} :
    encodeRegReg f x y n = ir ↔ ir &&& 0xF000#16 = f ++ 0#12 ∧ fieldX ir = x ∧ fieldY ir = y ∧ fieldN ir = n := by
  constructor
  · rintro rfl
    exact ⟨encodeRegReg_family f x y n, fieldX_encodeRegReg f x y n, fieldY_encodeRegReg f x y n,
      fieldN_encodeRegReg f x y n⟩
  · rintro ⟨hf, rfl, rfl, rfl⟩
    rw [← family_of_mask hf, encodeRegReg_fields]

/-- The same format where `ir[3:0]` is the sub-opcode: the mask 0xF00F of R76. -/
theorem encodeRegReg_of_low_mask {ir : Word} {f n : Nibble} (h : ir &&& 0xF00F#16 = f ++ (0#8 ++ n)) :
    encodeRegReg f (fieldX ir) (fieldY ir) n = ir := by
  have hzero : ∀ m : Nibble, 0#8 ++ m = 0#4 ++ (0#4 ++ m) := by decide
  have hword : encodeRegReg (family ir) 0 0 (fieldN ir) = encodeRegReg f 0 0 n := by
    rwa [← encodeRegReg_fields ir, encodeRegReg_low, hzero, hzero] at h
  have hf : family ir = f := by simpa using congrArg family hword
  have hn : fieldN ir = n := by simpa using congrArg fieldN hword
  rw [← hf, ← hn, encodeRegReg_fields]

theorem opcodeRow_selects_encode (i : Instr) : (opcodeRow i).selects (encode i) = true := by
  cases i with
  | cls | ret => rfl
  | jp | call | ldI | jpV0 => exact beq_iff_eq.mpr ((Laws.encodeAddr_family ..).trans rfl)
  | seImm | sneImm | ldImm | addImm | rnd => exact beq_iff_eq.mpr ((Laws.encodeRegImm_family ..).trans rfl)
  | seReg | sneReg | drw => exact beq_iff_eq.mpr ((encodeRegReg_family ..).trans rfl)
  | ldReg | orReg | andReg | xorReg | addReg | subReg | shr | subnReg | shl =>
    exact beq_iff_eq.mpr ((encodeRegReg_low ..).trans rfl)
  | skp | sknp | ldVxDt | ldVxK | ldDtVx | ldStVx | addI | ldF | ldB | ldMemVx | ldVxMem =>
    exact beq_iff_eq.mpr ((Laws.encodeRegSub_low ..).trans rfl)

/-- The same instruction with the operands a word holds at their places (R71). -/
def Instr.withFieldsOf (ir : Word) : Instr → Instr
  | .cls => .cls
  | .ret => .ret
  | .jp _ => .jp (fieldNNN ir)
  | .call _ => .call (fieldNNN ir)
  | .seImm _ _ => .seImm (fieldX ir) (fieldNN ir)
  | .sneImm _ _ => .sneImm (fieldX ir) (fieldNN ir)
  | .seReg _ _ _ => .seReg (fieldX ir) (fieldY ir) (fieldN ir)
  | .ldImm _ _ => .ldImm (fieldX ir) (fieldNN ir)
  | .addImm _ _ => .addImm (fieldX ir) (fieldNN ir)
  | .ldReg _ _ => .ldReg (fieldX ir) (fieldY ir)
  | .orReg _ _ => .orReg (fieldX ir) (fieldY ir)
  | .andReg _ _ => .andReg (fieldX ir) (fieldY ir)
  | .xorReg _ _ => .xorReg (fieldX ir) (fieldY ir)
  | .addReg _ _ => .addReg (fieldX ir) (fieldY ir)
  | .subReg _ _ => .subReg (fieldX ir) (fieldY ir)
  | .shr _ _ => .shr (fieldX ir) (fieldY ir)
  | .subnReg _ _ => .subnReg (fieldX ir) (fieldY ir)
  | .shl _ _ => .shl (fieldX ir) (fieldY ir)
  | .sneReg _ _ _ => .sneReg (fieldX ir) (fieldY ir) (fieldN ir)
  | .ldI _ => .ldI (fieldNNN ir)
  | .jpV0 _ => .jpV0 (fieldNNN ir)
  | .rnd _ _ => .rnd (fieldX ir) (fieldNN ir)
  | .drw _ _ _ => .drw (fieldX ir) (fieldY ir) (fieldN ir)
  | .skp _ => .skp (fieldX ir)
  | .sknp _ => .sknp (fieldX ir)
  | .ldVxDt _ => .ldVxDt (fieldX ir)
  | .ldVxK _ => .ldVxK (fieldX ir)
  | .ldDtVx _ => .ldDtVx (fieldX ir)
  | .ldStVx _ => .ldStVx (fieldX ir)
  | .addI _ => .addI (fieldX ir)
  | .ldF _ => .ldF (fieldX ir)
  | .ldB _ => .ldB (fieldX ir)
  | .ldMemVx _ => .ldMemVx (fieldX ir)
  | .ldVxMem _ => .ldVxMem (fieldX ir)

theorem opcodeRow_withFieldsOf (ir : Word) (i : Instr) : opcodeRow (i.withFieldsOf ir) = opcodeRow i := by
  cases i <;> rfl

/-- A word that selects a row is the word of that row's instruction with the operands it holds. -/
theorem encode_withFieldsOf {ir : Word} {i : Instr} (h : (opcodeRow i).selects ir = true) :
    encode (i.withFieldsOf ir) = ir := by
  have h : ir &&& (opcodeRow i).mask = (opcodeRow i).pattern := beq_iff_eq.mp h
  cases i with
  | cls | ret => exact h.symm.trans (BitVec.and_allOnes (x := ir))
  | jp | call | ldI | jpV0 => exact encodeAddr_eq_iff.mpr ⟨h, rfl⟩
  | seImm | sneImm | ldImm | addImm | rnd => exact encodeRegImm_eq_iff.mpr ⟨h, rfl, rfl⟩
  | seReg | sneReg | drw => exact encodeRegReg_eq_iff.mpr ⟨h, rfl, rfl, rfl⟩
  | ldReg | orReg | andReg | xorReg | addReg | subReg | shr | subnReg | shl => exact encodeRegReg_of_low_mask h
  | skp | sknp | ldVxDt | ldVxK | ldDtVx | ldStVx | addI | ldF | ldB | ldMemVx | ldVxMem =>
    exact encodeRegSub_eq_iff.mpr ⟨h, rfl⟩

/-- The rows of the map are the rows of the instructions. -/
theorem mem_opcodeMap {r : OpcodeRow} : r ∈ opcodeMap ↔ ∃ i, opcodeRow i = r := by
  constructor
  · simp only [opcodeMap, ← List.map_append]
    intro h
    obtain ⟨i, -, hi⟩ := List.mem_map.mp h
    exact ⟨i, hi⟩
  · rintro ⟨i, rfl⟩
    cases i <;> simp [opcodeMap, opcodeRow]

/-- A row selects a word exactly when the word decodes to an instruction of that row. -/
theorem selects_iff_decode {ir : Word} {r : OpcodeRow} (hr : r ∈ opcodeMap) :
    r.selects ir = true ↔ ∃ i, decode ir = .ok i ∧ opcodeRow i = r := by
  constructor
  · intro h
    obtain ⟨j, rfl⟩ := mem_opcodeMap.mp hr
    exact ⟨j.withFieldsOf ir, decode_eq_ok_iff.mpr (encode_withFieldsOf h), opcodeRow_withFieldsOf ir j⟩
  · rintro ⟨i, hi, rfl⟩
    rw [← encode_of_decode hi]
    exact opcodeRow_selects_encode i

/-! ## The unknown words -/

theorem decodeFamily0_unknown_iff (ir : Word) :
    decodeFamily0 ir = .error (.unknownOpcode ir) ↔ ir.toNat ≠ 0x00E0 ∧ ir.toNat ≠ 0x00EE := by
  unfold decodeFamily0
  split_ifs with hcls hret
  · simp [hcls]
  · simp [hret]
  · simp only [true_iff]
    exact ⟨fun h => hcls (BitVec.eq_of_toNat_eq h), fun h => hret (BitVec.eq_of_toNat_eq h)⟩

theorem decodeFamily8_unknown_iff (ir : Word) :
    decodeFamily8 ir = .error (.unknownOpcode ir) ↔ ir.toNat % 16 ∈ [0x8, 0x9, 0xA, 0xB, 0xC, 0xD, 0xF] := by
  rw [← fieldN_toNat]
  unfold decodeFamily8
  split
  case h_10 =>
    simp only [imp_false] at *
    simp only [true_iff, List.mem_cons, List.not_mem_nil, or_false]
    bv_omega
  all_goals
    rename_i hn
    simp [hn]

theorem decodeFamilyE_unknown_iff (ir : Word) :
    decodeFamilyE ir = .error (.unknownOpcode ir) ↔ ir.toNat % 256 ∉ [0x9E, 0xA1] := by
  rw [← fieldNN_toNat]
  unfold decodeFamilyE
  split
  case h_3 =>
    simp only [imp_false] at *
    simp only [true_iff, List.mem_cons, List.not_mem_nil, or_false]
    bv_omega
  all_goals
    rename_i hnn
    simp [hnn]

theorem decodeFamilyF_unknown_iff (ir : Word) :
    decodeFamilyF ir = .error (.unknownOpcode ir) ↔
      ir.toNat % 256 ∉ [0x07, 0x0A, 0x15, 0x18, 0x1E, 0x29, 0x33, 0x55, 0x65] := by
  rw [← fieldNN_toNat]
  unfold decodeFamilyF
  split
  case h_10 =>
    simp only [imp_false] at *
    simp only [true_iff, List.mem_cons, List.not_mem_nil, or_false]
    bv_omega
  all_goals
    rename_i hnn
    simp [hnn]

/-- The only error of the decoder is the unknown word itself. -/
theorem decode_error {ir : Word} {e : DecodeError} (h : decode ir = .error e) : e = .unknownOpcode ir := by
  have h0 : decodeFamily0 ir = .error e → e = .unknownOpcode ir := by
    unfold decodeFamily0
    split_ifs <;> simp [eq_comm]
  have h8 : decodeFamily8 ir = .error e → e = .unknownOpcode ir := by
    unfold decodeFamily8
    split <;> simp [eq_comm]
  have hE : decodeFamilyE ir = .error e → e = .unknownOpcode ir := by
    unfold decodeFamilyE
    split <;> simp [eq_comm]
  have hF : decodeFamilyF ir = .error e → e = .unknownOpcode ir := by
    unfold decodeFamilyF
    split <;> simp [eq_comm]
  unfold decode at h
  split at h
  case h_1 => exact h0 h
  case h_9 => exact h8 h
  case h_15 => exact hE h
  case h_16 => exact hF h
  all_goals cases h

/-- Settles O5: the unknown words of each family, put together by the family nibble. -/
theorem unknownWordsAreTheFourClasses : Obligations.UnknownWordsAreTheFourClasses := by
  intro ir
  rw [← family_toNat]
  unfold decode
  split
  case h_1 hf => simp [hf, decodeFamily0_unknown_iff]
  case h_9 hf => simp [hf, decodeFamily8_unknown_iff]
  case h_15 hf => simp [hf, decodeFamilyE_unknown_iff]
  case h_16 =>
    have hf : family ir = 0xF#4 := by
      simp only [imp_false] at *
      bv_omega
    simp [hf, decodeFamilyF_unknown_iff]
  all_goals
    rename_i hf
    simp [hf]

/-- Settles O4: a row selects a word exactly when the word decodes into it, and the decoded instruction is unique. -/
theorem decodeAgreesWithTheOpcodeMap : Obligations.DecodeAgreesWithTheOpcodeMap := by
  refine fun ir => ⟨fun i hi => ⟨?_, fun r hr hsel => ?_⟩, fun herr r hr => ?_, fun hnone => ?_⟩
  · exact (selects_iff_decode (mem_opcodeMap.mpr ⟨i, rfl⟩)).mpr ⟨i, hi, rfl⟩
  · obtain ⟨j, hj, rfl⟩ := (selects_iff_decode hr).mp hsel
    rw [hi] at hj
    cases hj
    rfl
  · rw [← Bool.not_eq_true, selects_iff_decode hr]
    rintro ⟨i, hi, -⟩
    rw [herr] at hi
    cases hi
  · cases hdec : decode ir with
    | error e => rw [decode_error hdec]
    | ok i =>
      have hrow : opcodeRow i ∈ opcodeMap := mem_opcodeMap.mpr ⟨i, rfl⟩
      have hsel := (selects_iff_decode hrow).mpr ⟨i, hdec, rfl⟩
      rw [hnone _ hrow] at hsel
      cases hsel

/-- Settles O1: each word is the word of its instruction. -/
theorem wordsOfTheSourceDecode : Obligations.WordsOfTheSourceDecode :=
  ⟨rfl, rfl, rfl, rfl, rfl, rfl, rfl, rfl, rfl, rfl⟩

end Sys2Proof
end

/-! # Rules over all instructions (10_state.md sections 1 to 9) -/
section
namespace Sys2Proof.Machine

open Sys2Proof (Byte Word Nibble Addr)

/-! ## Which instruction writes which part of the state -/

/-- Settles O16: `I` stands in the frame of these three only. -/
theorem onlyThreeInstructionsWriteI : Obligations.OnlyThreeInstructionsWriteI := fun _ _ _ h hi =>
  i_mem_writtenParts.mp (mem_writtenParts_of_not_same h hi)

/-- Settles O17: the stack stands in the frame of `CALL` only, `sp` in those of `CALL` and `RET`. -/
theorem onlyCallAndReturnTouchTheStack : Obligations.OnlyCallAndReturnTouchTheStack := fun _ _ _ h =>
  ⟨fun k hk => stack_mem_writtenParts.mp (mem_writtenParts_of_not_same h fun hsame => hk (hsame k)),
    fun hsp => sp_mem_writtenParts.mp (mem_writtenParts_of_not_same h hsp)⟩

/-- Settles O18: the display and the flag stand in the frames of these two only, and both set the flag last. -/
theorem onlyClearAndDrawTouchTheDisplay : Obligations.OnlyClearAndDrawTouchTheDisplay := by
  refine fun s t i h => ⟨?_, ?_, ?_⟩
  · rintro ⟨k, hk⟩
    exact gfx_mem_writtenParts.mp (mem_writtenParts_of_not_same h fun hsame => hk (hsame k))
  · rintro (rfl | ⟨x, y, n, rfl⟩) <;> cases h <;> rfl
  · exact fun hr => redraw_mem_writtenParts.mp (mem_writtenParts_of_not_same h hr)

/-- Settles O19: memory stands in the frames of these two only. -/
theorem onlyTheTwoStoresChangeMemory : Obligations.OnlyTheTwoStoresChangeMemory := fun _ _ _ a h ha =>
  mem_mem_writtenParts.mp (mem_writtenParts_of_not_same h fun hsame => ha (hsame a))

/-- Settles O20: each timer stands in the frame of its load only, and the outputs, latch and inputs in none. -/
theorem onlyTheTimerLoadsWriteTheTimers : Obligations.OnlyTheTimerLoadsWriteTheTimers := fun _ _ i h =>
  ⟨fun hdt => dt_mem_writtenParts.mp (mem_writtenParts_of_not_same h hdt),
    fun hst => st_mem_writtenParts.mp (mem_writtenParts_of_not_same h hst),
    exec_sameExcept h .tone (tone_not_written i), exec_sameExcept h .opcode (opcode_not_written i),
    exec_sameExcept h .key (key_not_written i), exec_sameExcept h .rnd (rnd_not_written i),
    exec_sameExcept h .turn (turn_not_written i)⟩

/-! ## The registers -/

theorem State.setFlag_reg_vf (s : State) (f : Bool) : (s.setFlag f).reg 0xF#4 = if f then 1 else 0 :=
  s.setReg_reg_self _ _

theorem State.setFlag_reg_vf_zero_or_one (s : State) (f : Bool) :
    (s.setFlag f).reg 0xF#4 = 0 ∨ (s.setFlag f).reg 0xF#4 = 1 := by
  rw [State.setFlag_reg_vf]
  cases f
  · exact .inl rfl
  · exact .inr rfl

theorem State.setFlag_regsSameExcept (s : State) (f : Bool) : RegsSameExcept [0xF#4] s (s.setFlag f) :=
  s.setReg_regsSameExcept _ _

theorem State.aluResultFlag_reg_vf (s : State) (x : Nibble) (r : Byte) (f : Bool) :
    (s.aluResultFlag x r f).reg 0xF#4 = if f then 1 else 0 := State.setFlag_reg_vf _ f

/-- The flag is written after the result, so the result is read back unless it went to VF (decision D10). -/
theorem State.aluResultFlag_reg_of_ne (s : State) {x : Nibble} (hx : x ≠ 0xF#4) (r : Byte) (f : Bool) :
    (s.aluResultFlag x r f).reg x = r := by
  rw [State.aluResultFlag_eq, State.setPc_reg, State.setReg_reg, if_neg hx, State.setReg_reg_self]

theorem State.aluResultFlag_reg_other (s : State) {x j : Nibble} (hx : j ≠ x) (hvf : j ≠ 0xF#4) (r : Byte) (f : Bool) :
    (s.aluResultFlag x r f).reg j = s.reg j := by
  rw [State.aluResultFlag_eq, State.setPc_reg, State.setReg_reg, if_neg hvf, State.setReg_reg, if_neg hx]

theorem State.aluResultFlag_regsSameExcept (s : State) (x : Nibble) (r : Byte) (f : Bool) :
    RegsSameExcept [x, 0xF#4] s (s.aluResultFlag x r f) := by
  intro j hj
  obtain ⟨hx, hvf⟩ : j ≠ x ∧ j ≠ 0xF#4 := by simpa using hj
  exact s.aluResultFlag_reg_other hx hvf r f

theorem regIndex_toNat {k : Nat} (h : k < 16) : (regIndex k).toNat = k := by
  rw [regIndex, BitVec.toNat_ofNat, Nat.mod_eq_of_lt (by omega)]

theorem regIndex_toNat_self (j : Nibble) : regIndex j.toNat = j := by simp [regIndex]

/-- A load of the first `n` registers reads each from its own address (R166). -/
theorem State.loadRegs_reg (s : State) {n : Nat} (hn : n ≤ 16) (j : Nibble) :
    (s.loadRegs n).reg j = if j.toNat < n then s.memRead (s.effAddr j.toNat) else s.reg j := by
  induction n with
  | zero => rfl
  | succ k ih =>
    have hidx : j = regIndex k ↔ j.toNat = k := by rw [← BitVec.toNat_inj, regIndex_toNat (by omega)]
    rw [State.loadRegs, State.setReg_reg, ih (by omega)]
    rcases Nat.lt_trichotomy j.toNat k with hlt | heq | hgt
    · rw [if_neg (by rw [hidx]; omega), if_pos hlt, if_pos (by omega)]
    · rw [if_pos (hidx.mpr heq), if_pos (by omega), heq]
    · rw [if_neg (by rw [hidx]; omega), if_neg (by omega), if_neg (by omega)]

/-- The registers an instruction leaves alone. -/
theorem exec_reg {i : Instr} {s t : State} (h : exec i s = .next t) {j : Nibble}
    (hdest : namesDestination i j = false) (hflag : j = 0xF#4 → writesFlag i = false) : t.reg j = s.reg j := by
  by_cases hpart : Part.regs ∈ writtenParts i
  case neg => exact exec_sameExcept h .regs hpart j
  cases i <;> simp only [writtenParts, List.mem_cons, List.not_mem_nil, reduceCtorEq, or_self] at hpart
  case ldImm | addImm | rnd | ldReg | orReg | andReg | xorReg | ldVxDt =>
    cases h
    exact s.aluResult_regsSameExcept _ _ j (mt List.mem_singleton.mp (ne_of_beq_false hdest).symm)
  case addReg | subReg | shr | subnReg | shl =>
    cases h
    have hvf : j ≠ 0xF#4 := fun hvf => Bool.noConfusion (hflag hvf)
    exact s.aluResultFlag_reg_other (ne_of_beq_false hdest).symm hvf _ _
  case ldVxK x =>
    rcases exec_ldVxK_next h with ⟨-, rfl⟩ | ⟨b, rfl⟩
    · rfl
    · exact s.aluResult_regsSameExcept x b j (mt List.mem_singleton.mp (ne_of_beq_false hdest).symm)
  case drw =>
    cases h
    have hvf : j ≠ 0xF#4 := fun hvf => Bool.noConfusion (hflag hvf)
    exact (State.setFlag_regsSameExcept _ _ j (mt List.mem_singleton.mp hvf)).trans rfl
  case ldVxMem x =>
    cases h
    have habove : ¬ j.toNat < x.toNat + 1 := by simpa [namesDestination, Nat.lt_succ_iff] using hdest
    exact (s.loadRegs_reg (by omega) j).trans (if_neg habove)

/-- Settles O21: contrapositive of `exec_reg`. -/
theorem onlyDestinationsAndTheFlagChange : Obligations.OnlyDestinationsAndTheFlagChange := by
  intro s t i j h hj
  by_contra hnot
  obtain ⟨hdest, hflag⟩ := not_or.mp hnot
  exact hj (exec_reg h (Bool.eq_false_iff.mpr hdest) fun hvf => Bool.eq_false_iff.mpr fun hw => hflag ⟨hvf, hw⟩)

/-- Settles O22: the last write to VF is that of a flag. -/
theorem flagInstructionsLeaveZeroOrOneInVF : Obligations.FlagInstructionsLeaveZeroOrOneInVF := by
  intro s i hi
  cases i <;> simp only [writesFlag, Bool.false_eq_true] at hi
  all_goals exact ⟨_, rfl, State.setFlag_reg_vf_zero_or_one _ _⟩

/-! ## The instruction pointer -/

theorem State.advance_pc (s : State) : s.advance.pc = s.pc + 2 := rfl

theorem jpV0_toNat (b : Byte) (nnn : Addr) : (zextByte b + zextAddr nnn).toNat = b.toNat + nnn.toNat := by
  have hb : (zextByte b).toNat = b.toNat := BitVec.toNat_setWidth_of_le (by decide)
  rw [BitVec.toNat_add, hb, zextAddr_toNat, Nat.mod_eq_of_lt (by omega)]

/-- Settles O23: the skips, the jumps, the call, the return and the key wait one by one; every other goes on by 2. -/
theorem pcAfterEveryInstruction : Obligations.PcAfterEveryInstruction := by
  intro s t i h
  cases i with
  | ret =>
    rcases exec_ret_next h with ⟨-, rfl⟩ | ⟨-, -, rfl⟩
    · exact .inl rfl
    · exact .inr (.inr (.inr (.inr (.inl ⟨rfl, rfl⟩))))
  | jp nnn =>
    cases h
    exact .inr (.inr (.inl ⟨nnn, .inl rfl, zextAddr_toNat nnn⟩))
  | call nnn =>
    rcases exec_call_next h with ⟨-, rfl⟩ | ⟨-, rfl⟩
    · exact .inr (.inr (.inl ⟨nnn, .inr rfl, zextAddr_toNat nnn⟩))
    · exact .inl rfl
  | jpV0 nnn =>
    cases h
    exact .inr (.inr (.inr (.inl ⟨nnn, rfl, jpV0_toNat _ nnn⟩)))
  | ldVxK x =>
    rcases exec_ldVxK_next h with ⟨hkey, rfl⟩ | ⟨b, rfl⟩
    · exact .inr (.inr (.inr (.inr (.inr ⟨x, rfl, hkey, rfl⟩))))
    · exact .inl rfl
  | seImm | sneImm | seReg | sneReg | skp | sknp =>
    cases h
    rw [State.skipIf_pc]
    split
    · exact .inr (.inl ⟨rfl, rfl⟩)
    · exact .inl rfl
  | ldMemVx x =>
    cases h
    exact .inl (by rw [State.advance_pc, State.storeRegs_pc])
  | ldVxMem x =>
    cases h
    exact .inl (by rw [State.advance_pc, State.loadRegs_pc])
  | _ => cases h; exact .inl rfl

end Sys2Proof.Machine
end

/-! # Jumps, call and return, skips (40_cycle_and_control_flow.md sections 2 to 4, 44_timers_and_keys.md section 2) -/
section
namespace Sys2Proof.Machine

open Sys2Proof (Byte Word Nibble Addr)

/-- Settles O25: the sum of a byte and a 12-bit address does not wrap. -/
theorem computedJumpAddsV0 : Obligations.ComputedJumpAddsV0 := fun s nnn =>
  ⟨_, rfl, jpV0_toNat (s.reg 0#4) nnn, s.setPc_sameExcept _⟩

/-! ## The call stack -/

theorem State.push_sp_toNat {s : State} (h : s.sp.toNat < 16) (w : Word) : (s.push w).sp.toNat = s.sp.toNat + 1 := by
  rw [State.push_eq, State.setSp_sp]
  bv_omega

theorem State.pop_sp_toNat {s : State} (h : 0 < s.sp.toNat) : s.pop.sp.toNat = s.sp.toNat - 1 := by
  rw [State.pop_eq, State.setSp_sp]
  bv_omega

/-- With a free slot the low nibble of `sp` is the slot that `sp` names. -/
theorem eq_setWidth_iff_toNat {b : Byte} (h : b.toNat < 16) (k : Nibble) : k = b.setWidth 4 ↔ k.toNat = b.toNat := by
  rw [← BitVec.toNat_inj, BitVec.toNat_setWidth, Nat.mod_eq_of_lt h]

theorem State.push_slot {s : State} (h : s.sp.toNat < 16) (w : Word) (k : Nibble) :
    (s.push w).slot k = if k.toNat = s.sp.toNat then w else s.slot k := by
  rw [State.push_eq, State.setSp_slot, State.setSlot_slot]
  simp only [eq_setWidth_iff_toNat h]

/-- The slot a return reads is the one `sp - 1` names. -/
theorem State.top_eq_slot {s : State} (hpos : 0 < s.sp.toNat) (hle : s.sp.toNat ≤ 16) {k : Nibble}
    (hk : k.toNat = s.sp.toNat - 1) : s.top = s.slot k := by
  have hpred : (s.sp - 1).toNat = s.sp.toNat - 1 := s.pop_sp_toNat hpos
  have hlt : (s.sp - 1).toNat < 16 := hpred.trans_lt ((Nat.sub_one_lt hpos.ne').trans_le hle)
  rw [State.top, (eq_setWidth_iff_toNat hlt k).mpr (hk.trans hpred.symm)]

/-- Settles O26: the push of the accepted call. -/
theorem callPushesItsOwnAddress : Obligations.CallPushesItsOwnAddress := by
  intro s nnn h
  refine ⟨_, exec_call_of_lt h nnn, zextAddr_toNat nnn, State.push_sp_toNat h s.pc, State.push_slot h s.pc, ?_⟩
  exact (((s.setSlot_sameExcept _ _).trans (State.setSp_sameExcept _ _)).trans
    (State.setPc_sameExcept _ _)).mono (by decide)

/-- Settles O27: the pop of the accepted return. -/
theorem returnGoesPastTheCall : Obligations.ReturnGoesPastTheCall := by
  intro s hpos hle
  refine ⟨_, exec_ret_of_pos hpos hle, State.pop_sp_toNat hpos, fun k hk => ?_, ?_⟩
  · rw [State.setPc_pc, State.top_eq_slot hpos hle hk]
  · exact ((s.setSp_sameExcept _).trans (State.setPc_sameExcept _ _)).mono (by decide)

/-- Settles O28: the return finds the address of the call in the slot the call wrote. -/
theorem callThenReturnResumesAfterTheCall : Obligations.CallThenReturnResumesAfterTheCall := by
  intro s nnn h
  refine ⟨_, exec_call_of_lt h nnn, fun u husp huslot => ?_⟩
  have hsp : u.sp.toNat = s.sp.toNat + 1 := (congrArg BitVec.toNat husp).trans (State.push_sp_toNat h s.pc)
  have hpos : 0 < u.sp.toNat := by omega
  have hle : u.sp.toNat ≤ 16 := by omega
  have hk : (s.sp.setWidth 4 : Nibble).toNat = s.sp.toNat := (eq_setWidth_iff_toNat h _).mp rfl
  have htop : u.top = s.pc := by
    rw [State.top_eq_slot hpos hle (hk.trans (by omega)), huslot, State.setPc_slot, State.push_slot h, if_pos hk]
  refine ⟨_, exec_ret_of_pos hpos hle, ?_, ?_⟩
  · rw [State.setPc_pc, htop]
  · apply BitVec.eq_of_toNat_eq
    rw [State.setPc_sp, State.pop_sp_toNat hpos, hsp, Nat.add_sub_cancel]

/-- Settles O29: both refused forms raise their diagnostic. -/
theorem stackFaultsAreReportedAndSteppedOver : Obligations.StackFaultsAreReportedAndSteppedOver := by
  refine ⟨fun s nnn h => ⟨_, exec_call_of_full h nnn, rfl, rfl, rfl, s.raise_sameExcept _⟩, fun s h => ?_⟩
  have hz : s.sp = 0 := BitVec.eq_of_toNat_eq h
  exact ⟨_, exec_ret_of_empty hz, rfl, rfl, rfl, s.raise_sameExcept _⟩

/-- Settles O30: `sp` above 16 leaves both instructions their last case. -/
theorem stackPointerAboveSixteenStops : Obligations.StackPointerAboveSixteenStops := fun _ nnn h =>
  ⟨exec_call_of_gt h nnn, exec_ret_of_gt h⟩

/-! ## Skips -/

/-- Settles O32: both skip on the comparison of the two registers; `n` is not read. -/
theorem registerSkipsCompareTwoRegisters : Obligations.RegisterSkipsCompareTwoRegisters := by
  refine fun s x y n => ⟨⟨_, rfl, ?_, s.skipIf_sameExcept _⟩, ⟨_, rfl, ?_, s.skipIf_sameExcept _⟩⟩
  · simp only [State.skipIf_pc, beq_iff_eq]
  · simp only [State.skipIf_pc, bne_iff_ne, ite_not]

theorem lowNibble_toNat (b : Byte) : (lowNibble b).toNat = b.toNat % 16 := BitVec.toNat_setWidth 4 b

theorem State.pressed_lowNibble (s : State) (b : Byte) : s.pressed (lowNibble b) = s.key.getLsbD (b.toNat % 16) := by
  rw [State.pressed, lowNibble_toNat]

/-- Settles O54: the key is numbered by the low nibble. -/
theorem keySkipsTestOneKey : Obligations.KeySkipsTestOneKey := by
  refine fun s x => ⟨⟨_, rfl, ?_, s.skipIf_sameExcept _⟩, ⟨_, rfl, ?_, s.skipIf_sameExcept _⟩⟩
  · rw [State.skipIf_pc, State.pressed_lowNibble]
  · rw [State.skipIf_pc, State.pressed_lowNibble]
    cases s.key.getLsbD _ <;> rfl

end Sys2Proof.Machine
end

/-! # Registers, the address register, the timers (41_alu.md, 42_index_and_memory.md section 2) -/
section
namespace Sys2Proof.Machine

open Sys2Proof (Byte Word Nibble Addr)

/-! ## Results without a flag -/

/-- What every instruction does that writes `V[X]`, no flag, and goes on: stated for any fact about the result. -/
theorem State.aluResult_spec (s : State) (x : Nibble) (r : Byte) {p : Byte → Prop} (hp : p r) :
    p ((s.aluResult x r).reg x) ∧ RegsSameExcept [x] s (s.aluResult x r) ∧ (s.aluResult x r).pc = s.pc + 2 ∧
      SameExcept [.regs, .pc] s (s.aluResult x r) :=
  ⟨(s.aluResult_reg_self x r).symm ▸ hp, s.aluResult_regsSameExcept x r, s.aluResult_pc x r,
    s.aluResult_sameExcept x r⟩

/-- Settles O34: four results without a flag, bit by bit. -/
theorem copyAndLogicWriteOneRegister : Obligations.CopyAndLogicWriteOneRegister := by
  refine fun s x y => ⟨⟨_, rfl, ?_⟩, ⟨_, rfl, ?_⟩, ⟨_, rfl, ?_⟩, ⟨_, rfl, ?_⟩⟩
  · exact s.aluResult_spec x (s.reg y) (p := fun r => r = s.reg y) rfl
  · exact s.aluResult_spec x _ (p := fun r => ∀ b, r.getLsbD b = ((s.reg x).getLsbD b || (s.reg y).getLsbD b))
      fun _ => BitVec.getLsbD_or
  · exact s.aluResult_spec x _ (p := fun r => ∀ b, r.getLsbD b = ((s.reg x).getLsbD b && (s.reg y).getLsbD b))
      fun _ => BitVec.getLsbD_and
  · exact s.aluResult_spec x _ (p := fun r => ∀ b, r.getLsbD b = ((s.reg x).getLsbD b ^^ (s.reg y).getLsbD b))
      fun _ => BitVec.getLsbD_xor

/-- Settles O37: the random byte of the cycle under the mask, bit by bit. -/
theorem randomByteIsMasked : Obligations.RandomByteIsMasked := fun s x nn =>
  ⟨_, rfl, s.aluResult_spec x _ (p := fun r => ∀ b, r.getLsbD b = (s.rnd.getLsbD b && nn.getLsbD b))
    fun _ => BitVec.getLsbD_and⟩

/-! ## Results with a flag -/

theorem State.aluResultFlag_pc (s : State) (x : Nibble) (r : Byte) (f : Bool) :
    (s.aluResultFlag x r f).pc = s.pc + 2 := rfl

/-- What every instruction does that writes `V[X]` and a flag and goes on: stated for any facts about the result and about the
flag as VF holds it. -/
theorem State.aluResultFlag_spec (s : State) (x : Nibble) {r : Byte} {f : Bool} {p q : Byte → Prop} (hp : p r)
    (hq : q (if f then 1 else 0)) :
    (x ≠ 0xF#4 → p ((s.aluResultFlag x r f).reg x)) ∧ q ((s.aluResultFlag x r f).reg 0xF#4) ∧
      RegsSameExcept [x, 0xF#4] s (s.aluResultFlag x r f) ∧ (s.aluResultFlag x r f).pc = s.pc + 2 ∧
      SameExcept [.regs, .pc] s (s.aluResultFlag x r f) :=
  ⟨fun hx => (s.aluResultFlag_reg_of_ne hx r f).symm ▸ hp, (s.aluResultFlag_reg_vf x r f).symm ▸ hq,
    s.aluResultFlag_regsSameExcept x r f, s.aluResultFlag_pc x r f, s.aluResultFlag_sameExcept x r f⟩

theorem byte_sub_toNat (a b : Byte) : (a - b).toNat = (a.toNat + 256 - b.toNat) % 256 := by
  rw [BitVec.toNat_sub]
  omega

/-- Settles O35: the byte arithmetic is that of the numbers modulo 256, the flags compare the numbers. -/
theorem addAndSubtractWithTheirFlags : Obligations.AddAndSubtractWithTheirFlags := by
  refine fun s x y => ⟨⟨_, rfl, ?_⟩, ⟨_, rfl, ?_⟩, ⟨_, rfl, ?_⟩⟩
  · exact s.aluResultFlag_spec x (p := fun r => r.toNat = ((s.reg x).toNat + (s.reg y).toNat) % 256)
      (q := fun f => f = if 255 < (s.reg x).toNat + (s.reg y).toNat then 1 else 0)
      (BitVec.toNat_add _ _) (by simp only [carry, decide_eq_true_eq])
  · exact s.aluResultFlag_spec x (p := fun r => r.toNat = ((s.reg x).toNat + 256 - (s.reg y).toNat) % 256)
      (q := fun f => f = if (s.reg y).toNat ≤ (s.reg x).toNat then 1 else 0)
      (byte_sub_toNat _ _) (by simp only [noBorrow, decide_eq_true_eq])
  · exact s.aluResultFlag_spec x (p := fun r => r.toNat = ((s.reg y).toNat + 256 - (s.reg x).toNat) % 256)
      (q := fun f => f = if (s.reg x).toNat ≤ (s.reg y).toNat then 1 else 0)
      (byte_sub_toNat _ _) (by simp only [noBorrow, decide_eq_true_eq])

theorem lowBitOut_toNat (a : Byte) : (if lowBitOut a then 1 else 0 : Byte).toNat = a.toNat % 2 := by
  rw [lowBitOut, BitVec.getLsbD, Nat.testBit_zero]
  rcases Nat.mod_two_eq_zero_or_one a.toNat with h | h <;> simp [h]

theorem highBitOut_toNat (a : Byte) : (if highBitOut a then 1 else 0 : Byte).toNat = a.toNat / 128 := by
  have hlt := a.isLt
  rw [highBitOut, BitVec.getLsbD, Nat.testBit_eq_decide_div_mod_eq]
  rcases Nat.lt_or_ge a.toNat 128 with h | h
  · have : a.toNat / 128 = 0 := by omega
    simp [this]
  · have : a.toNat / 128 = 1 := by omega
    simp [this]

/-- Settles O36: a shift by one halves or doubles the number; the bit out is its remainder or its overflow. -/
theorem shiftsPutTheBitOutInVF : Obligations.ShiftsPutTheBitOutInVF := by
  refine fun s x y => ⟨⟨_, rfl, ?_⟩, ⟨_, rfl, ?_⟩⟩
  · exact s.aluResultFlag_spec x (p := fun r => r.toNat = (s.reg x).toNat / 2)
      (q := fun f => f.toNat = (s.reg x).toNat % 2) (BitVec.toNat_ushiftRight _ _) (lowBitOut_toNat _)
  · exact s.aluResultFlag_spec x (p := fun r => r.toNat = 2 * (s.reg x).toNat % 256)
      (q := fun f => f.toNat = (s.reg x).toNat / 128)
      (by rw [BitVec.toNat_shiftLeft, Nat.shiftLeft_eq, Nat.mul_comm]) (highBitOut_toNat _)

/-! ## The address register and the timers -/

theorem glyphAddr_toNat (b : Byte) : (glyphAddr b).toNat = 0x050 + 5 * (b.toNat % 16) := by
  rw [glyphAddr, lowNibble_toNat, BitVec.toNat_ofNat, Config.fontBase, Config.glyphRows]
  omega

theorem add_zextByte_toNat (w : Word) (b : Byte) : (w + zextByte b).toNat = (w.toNat + b.toNat) % 65536 := by
  have hb : (zextByte b).toNat = b.toNat := BitVec.toNat_setWidth_of_le (by decide)
  rw [BitVec.toNat_add, hb]

/-- Settles O39: the sum modulo 65536 and the glyph's address, each into `I`. -/
theorem addressRegisterArithmetic : Obligations.AddressRegisterArithmetic := fun s x =>
  ⟨⟨_, rfl, add_zextByte_toNat s.i (s.reg x), rfl, s.setI_advance_sameExcept _⟩,
    ⟨_, rfl, glyphAddr_toNat (s.reg x), rfl, s.setI_advance_sameExcept _⟩⟩

/-- Settles O49: each copies one byte and goes on. -/
theorem timerInstructionsCopyOneByte : Obligations.TimerInstructionsCopyOneByte := fun s x =>
  ⟨⟨_, exec_ldVxDt x s, s.aluResult_spec x s.dt (p := fun r => r = s.dt) rfl⟩,
    ⟨_, exec_ldDtVx x s, rfl, rfl, exec_sameExcept (exec_ldDtVx x s)⟩,
    ⟨_, exec_ldStVx x s, rfl, rfl, exec_sameExcept (exec_ldStVx x s)⟩⟩

end Sys2Proof.Machine
end

/-! # Memory transfers, and the uniqueness of the canonical form (42_index_and_memory.md, 20_memory.md) -/
section
namespace Sys2Proof.Machine

open Sys2Proof (Byte Word Nibble Addr)

/-! ## Canonical memories are determined by what they read -/

/-- An entry of a canonical memory is below 4096 and differs from the reset byte; what follows starts above it. -/
theorem Memory.wfFrom_cons {lo k : Nat} {b : Byte} {rest : Memory} (h : Memory.wfFrom lo ((k, b) :: rest) = true) :
    k < 4096 ∧ b ≠ initialByte k ∧ Memory.wfFrom (k + 1) rest = true := by
  simp only [Memory.wfFrom, Bool.and_eq_true, decide_eq_true_eq, bne_iff_ne] at h
  obtain ⟨⟨⟨-, hk⟩, hb⟩, hrest⟩ := h
  exact ⟨hk, hb, hrest⟩

theorem Memory.read_cons_self (k : Nat) (b : Byte) (rest : Memory) : Memory.read ((k, b) :: rest) k = b := if_pos rfl

/-- A canonical memory differs from one that lists nothing up to its first address. -/
theorem Memory.read_first_ne {lo k : Nat} {b : Byte} {rest m : Memory}
    (h : Memory.wfFrom lo ((k, b) :: rest) = true) (hm : Memory.wfFrom (k + 1) m = true) :
    ∃ a, a < 4096 ∧ Memory.read ((k, b) :: rest) a ≠ m.read a := by
  obtain ⟨hk, hb, -⟩ := Memory.wfFrom_cons h
  refine ⟨k, hk, ?_⟩
  rwa [Memory.read_cons_self, Memory.read_below hm k.lt_succ_self]

/-- The lower bound of a list that lists something may be raised to its first address. -/
theorem Memory.wfFrom_first {lo lo' k : Nat} {b : Byte} {rest : Memory}
    (h : Memory.wfFrom lo ((k, b) :: rest) = true) (hl : lo' ≤ k) : Memory.wfFrom lo' ((k, b) :: rest) = true := by
  obtain ⟨hk, hb, hrest⟩ := Memory.wfFrom_cons h
  simp only [Memory.wfFrom, Bool.and_eq_true, decide_eq_true_eq, bne_iff_ne]
  exact ⟨⟨⟨hl, hk⟩, hb⟩, hrest⟩

/-- Behind a common first address the same bytes are read. -/
theorem Memory.read_eq_of_cons {lo k : Nat} {b b' : Byte} {rest rest' : Memory}
    (h : Memory.wfFrom lo ((k, b) :: rest) = true) (h' : Memory.wfFrom lo ((k, b') :: rest') = true) {a : Nat}
    (hread : Memory.read ((k, b) :: rest) a = Memory.read ((k, b') :: rest') a) : rest.read a = rest'.read a := by
  obtain ⟨-, -, hrest⟩ := Memory.wfFrom_cons h
  obtain ⟨-, -, hrest'⟩ := Memory.wfFrom_cons h'
  by_cases hka : k = a
  · rw [Memory.read_below hrest (by omega), Memory.read_below hrest' (by omega)]
  · rwa [Memory.read, Memory.read, if_neg hka, if_neg hka] at hread

/-- By induction along both lists: the first address of either is read differently by a list that starts later. -/
theorem Memory.eq_of_read_eq {m m' : Memory} {lo : Nat} (h : Memory.wfFrom lo m = true)
    (h' : Memory.wfFrom lo m' = true) (hread : ∀ a : Nat, a < 4096 → m.read a = m'.read a) : m = m' := by
  induction m generalizing m' lo with
  | nil =>
    cases m' with
    | nil => rfl
    | cons e' rest' =>
      obtain ⟨a, ha, hne⟩ := Memory.read_first_ne h' (m := []) rfl
      exact absurd (hread a ha).symm hne
  | cons e rest ih =>
    cases m' with
    | nil =>
      obtain ⟨a, ha, hne⟩ := Memory.read_first_ne h (m := []) rfl
      exact absurd (hread a ha) hne
    | cons e' rest' =>
      obtain ⟨k, b⟩ := e
      obtain ⟨k', b'⟩ := e'
      rcases Nat.lt_trichotomy k k' with hlt | rfl | hgt
      · obtain ⟨a, ha, hne⟩ := Memory.read_first_ne h (Memory.wfFrom_first h' hlt)
        exact absurd (hread a ha) hne
      · obtain ⟨hk, -, hrest⟩ := Memory.wfFrom_cons h
        obtain ⟨-, -, hrest'⟩ := Memory.wfFrom_cons h'
        have hb : b = b' := by simpa only [Memory.read_cons_self] using hread k hk
        rw [hb, ih hrest hrest' fun a ha => Memory.read_eq_of_cons h h' (hread a ha)]
      · obtain ⟨a, ha, hne⟩ := Memory.read_first_ne h' (Memory.wfFrom_first h hgt)
        exact absurd (hread a ha).symm hne

/-- Settles O45: `Memory.eq_of_read_eq` from address 0 on. -/
theorem canonicalMemoriesThatReadAlikeAreEqual : Obligations.CanonicalMemoriesThatReadAlikeAreEqual := fun _ _ =>
  Memory.eq_of_read_eq

/-! ## Stores of registers -/

theorem State.memRead_mod (s : State) (a : Nat) : s.memRead (a % 4096) = s.memRead a := by
  rw [State.memRead, State.memRead, Config.memSize, Nat.mod_mod]

theorem State.effAddr_mod (s : State) (k : Nat) : s.effAddr k % 4096 = s.effAddr k := Nat.mod_mod _ _

/-- Offsets below 4096 name distinct addresses, also where the transfer wraps (decision D2). -/
theorem State.effAddr_inj {s : State} {j k : Nat} (hj : j < 4096) (hk : k < 4096) :
    s.effAddr j = s.effAddr k ↔ j = k := by
  rw [State.effAddr, State.effAddr, Config.memSize]
  omega

/-- A byte written at an offset from `I` reads back, and is the only one that changes. -/
theorem State.memRead_memWrite_effAddr {s : State} (h : s.mem.wf = true) (u : State) (k : Nat) (b : Byte) (a : Nat) :
    (s.memWrite (u.effAddr k) b).memRead a = if a % 4096 = u.effAddr k then b else s.memRead a := by
  rw [State.memRead_memWrite h, State.effAddr_mod]

/-- Outside the addresses of a store of registers memory reads as before. -/
theorem State.memRead_storeRegs_other {s : State} (h : s.mem.wf = true) {n a : Nat}
    (ha : ∀ k, k < n → a % 4096 ≠ s.effAddr k) : (s.storeRegs n).memRead a = s.memRead a := by
  induction n with
  | zero => rfl
  | succ n ih =>
    rw [State.storeRegs, State.memRead_memWrite_effAddr (State.storeRegs_wf h n), if_neg (ha n n.lt_succ_self)]
    exact ih fun k hk => ha k (Nat.lt_succ_of_lt hk)

/-- A store of registers puts register `k` at offset `k`: no later byte of the 16 falls on the same address. -/
theorem State.memRead_storeRegs {s : State} (h : s.mem.wf = true) {n : Nat} (hn : n ≤ 16) {k : Nat} (hk : k < n) :
    (s.storeRegs n).memRead (s.i.toNat + k) = s.reg (regIndex k) := by
  induction n with
  | zero => exact absurd hk k.not_lt_zero
  | succ n ih =>
    have haddr : (s.i.toNat + k) % 4096 = s.effAddr n ↔ k = n := State.effAddr_inj (by omega) (by omega)
    rw [State.storeRegs, State.memRead_memWrite_effAddr (State.storeRegs_wf h n)]
    by_cases hkn : k = n
    · rw [if_pos (haddr.mpr hkn), hkn]
    · rw [if_neg (mt haddr.mp hkn), ih (by omega) (by omega)]

theorem exec_ldMemVx (x : Nibble) (s : State) : exec (.ldMemVx x) s = .next (s.storeRegs (x.toNat + 1)).advance := rfl
theorem exec_ldVxMem (x : Nibble) (s : State) : exec (.ldVxMem x) s = .next (s.loadRegs (x.toNat + 1)).advance := rfl

/-- The register of a nibble no greater than `X` is among those a transfer up to `X` stores. -/
theorem State.memRead_storeRegs_nibble {s : State} (h : s.mem.wf = true) {x k : Nibble} (hk : k.toNat ≤ x.toNat) :
    (s.storeRegs (x.toNat + 1)).memRead (s.i.toNat + k.toNat) = s.reg k := by
  rw [State.memRead_storeRegs h (by omega) (Nat.lt_succ_of_le hk), regIndex_toNat_self]

/-- Settles O41: the stored bytes and the others of a store of registers. -/
theorem registersAreStored : Obligations.RegistersAreStored := by
  intro s x hwf
  refine ⟨_, exec_ldMemVx x s, fun k hk => ?_, fun a ha => ?_, ?_, exec_sameExcept (exec_ldMemVx x s)⟩
  · rw [State.advance_eq, State.setPc_memRead, State.memRead_storeRegs_nibble hwf hk]
  · rw [State.advance_eq, State.setPc_memRead,
      State.memRead_storeRegs_other hwf fun k hk => ha k (Nat.le_of_lt_succ hk)]
  · rw [State.advance_pc, State.storeRegs_pc]

/-- Settles O42: each register up to `X` comes from its own address. -/
theorem registersAreLoaded : Obligations.RegistersAreLoaded := by
  intro s x
  refine ⟨_, exec_ldVxMem x s, fun k => ?_, ?_, exec_sameExcept (exec_ldVxMem x s)⟩
  · rw [State.advance_eq, State.setPc_reg, State.loadRegs_reg s (by omega)]
    simp only [Nat.lt_succ_iff, State.effAddr, Config.memSize, State.memRead_mod]
    rfl
  · rw [State.advance_pc, State.loadRegs_pc]

/-- Settles O43: a load from the addresses of the store reads what was stored. -/
theorem storedRegistersComeBack : Obligations.StoredRegistersComeBack := by
  intro s x hwf
  refine ⟨_, exec_ldMemVx x s, fun u hmem hi => ⟨_, exec_ldVxMem x u, fun k hk => ?_⟩⟩
  rw [State.advance_eq, State.setPc_mem] at hmem
  rw [State.advance_eq, State.setPc_i, State.storeRegs_i] at hi
  rw [State.advance_eq, State.setPc_reg, State.loadRegs_reg u (by omega), if_pos (Nat.lt_succ_of_le hk), State.effAddr,
    Config.memSize, State.memRead_mod, hi, State.memRead, hmem]
  exact State.memRead_storeRegs_nibble hwf hk

/-- Settles O44: the next fetch reads at the addresses of the first two stored bytes. -/
theorem storedWordIsFetchedNext : Obligations.StoredWordIsFetchedNext := by
  intro s x hwf hx haddr
  refine ⟨_, exec_ldMemVx x s, ?_⟩
  have hstored : ∀ k : Nibble, k.toNat ≤ 1 →
      (s.storeRegs (x.toNat + 1)).advance.memRead ((s.pc + 2).toNat + k.toNat) = s.reg k := by
    intro k hk
    have hat : ((s.pc + 2).toNat + k.toNat) % 4096 = (s.i.toNat + k.toNat) % 4096 := by
      have hnext : (s.pc + 2).toNat = (s.pc.toNat + 2) % 65536 := BitVec.toNat_add _ _
      omega
    rw [State.advance_eq, State.setPc_memRead, ← State.memRead_mod, hat, State.memRead_mod]
    exact State.memRead_storeRegs_nibble hwf (hk.trans hx)
  have hfirst := hstored 0#4 (Nat.zero_le 1)
  have hsecond := hstored 1#4 (Nat.le_refl 1)
  rw [State.fetch, wordOfBytes_toNat, State.advance_pc, State.storeRegs_pc]
  exact congrArg₂ (fun b c : Byte => 256 * b.toNat + c.toNat) hfirst hsecond

/-! ## The decimal digits -/

theorem digit_toNat {n : Nat} (h : n < 256) : (BitVec.ofNat 8 n).toNat = n := by
  rw [BitVec.toNat_ofNat, Nat.mod_eq_of_lt h]

theorem exec_ldB (x : Nibble) (s : State) :
    exec (.ldB x) s = .next (((s.memWrite (s.effAddr 0) (hundreds (s.reg x))).memWrite (s.effAddr 1)
      (tens (s.reg x))).memWrite (s.effAddr 2) (ones (s.reg x))).advance := rfl

/-- Every byte after the three digits are stored. -/
theorem exec_ldB_memRead {s t : State} {x : Nibble} (hwf : s.mem.wf = true) (h : exec (.ldB x) s = .next t) (a : Nat) :
    t.memRead a = if a % 4096 = s.effAddr 2 then ones (s.reg x) else if a % 4096 = s.effAddr 1 then tens (s.reg x)
      else if a % 4096 = s.effAddr 0 then hundreds (s.reg x) else s.memRead a := by
  cases h
  have hwf0 := State.memWrite_wf hwf (s.effAddr 0) (hundreds (s.reg x))
  have hwf1 := State.memWrite_wf hwf0 (s.effAddr 1) (tens (s.reg x))
  rw [State.advance_eq, State.setPc_memRead, State.memRead_memWrite_effAddr hwf1, State.memRead_memWrite_effAddr hwf0,
    State.memRead_memWrite_effAddr hwf]

/-- At an offset from `I` the three addresses are told apart by their offsets. -/
theorem exec_ldB_memRead_offset {s t : State} {x : Nibble} (hwf : s.mem.wf = true) (h : exec (.ldB x) s = .next t)
    {j : Nat} (hj : j < 4096) :
    t.memRead (s.i.toNat + j) = if j = 2 then ones (s.reg x) else if j = 1 then tens (s.reg x)
      else if j = 0 then hundreds (s.reg x) else s.memRead (s.i.toNat + j) := by
  have haddr : ∀ k, k < 4096 → ((s.i.toNat + j) % 4096 = s.effAddr k ↔ j = k) := fun k => State.effAddr_inj hj
  simp only [exec_ldB_memRead hwf h, haddr 0 (by decide), haddr 1 (by decide), haddr 2 (by decide)]

/-- Settles O40: each digit is the last one written at its own offset. -/
theorem decimalDigitsAreStored : Obligations.DecimalDigitsAreStored := by
  intro s x hwf
  have hlt := (s.reg x).isLt
  have hexec := exec_ldB x s
  have hoffset := fun j => exec_ldB_memRead_offset (j := j) hwf hexec
  refine ⟨_, hexec, ?_, ?_, ?_, fun a ha => ?_, rfl, exec_sameExcept hexec⟩
  · exact (congrArg BitVec.toNat (hoffset 0 (by decide))).trans (digit_toNat (by omega))
  · exact (congrArg BitVec.toNat (hoffset 1 (by decide))).trans (digit_toNat (by omega))
  · exact (congrArg BitVec.toNat (hoffset 2 (by decide))).trans (digit_toNat (by omega))
  · rw [exec_ldB_memRead hwf hexec, if_neg (ha 2 (by decide)), if_neg (ha 1 (by decide)), if_neg (ha 0 (by decide))]

end Sys2Proof.Machine
end

/-! # Drawing (43_display.md R180 to R184) -/
section
namespace Sys2Proof.Machine

open Sys2Proof (Byte Word Nibble Addr)

/-! ## Flipping a set of cells -/

/-- From `a` to `b` exactly the cells in `P` are flipped, and the collision flag rises when one of them was set (R183). -/
def Draws (P : Fin 2048 → Prop) (a b : DrawAcc) : Prop :=
  (∀ k : Fin 2048, (P k → b.1[k.val] = !a.1[k.val]) ∧ (¬ P k → b.1[k.val] = a.1[k.val])) ∧
  (b.2 = true ↔ a.2 = true ∨ ∃ k, P k ∧ a.1[k.val] = true)

theorem Draws.congr {P Q : Fin 2048 → Prop} {a b : DrawAcc} (h : Draws P a b) (hPQ : ∀ k, P k ↔ Q k) : Draws Q a b := by
  rwa [← funext fun k => propext (hPQ k)]

theorem Draws.refl (a : DrawAcc) : Draws (fun _ => False) a a :=
  ⟨fun _ => ⟨False.elim, fun _ => rfl⟩, by simp⟩

/-- Two draws on disjoint sets of cells make one draw: the second finds its cells as the first found them. -/
theorem Draws.trans {P Q : Fin 2048 → Prop} {a b c : DrawAcc} (hab : Draws P a b) (hbc : Draws Q b c)
    (hdisj : ∀ k, P k → ¬ Q k) : Draws (fun k => P k ∨ Q k) a c := by
  obtain ⟨hcell, hhit⟩ := hab
  obtain ⟨hcell', hhit'⟩ := hbc
  have hkept : ∀ k, Q k → b.1[k.val] = a.1[k.val] := fun k hQ => (hcell k).2 fun hP => hdisj k hP hQ
  refine ⟨fun k => ⟨?_, fun hnot => ?_⟩, ?_⟩
  · rintro (hP | hQ)
    · rw [(hcell' k).2 (hdisj k hP), (hcell k).1 hP]
    · rw [(hcell' k).1 hQ, hkept k hQ]
  · obtain ⟨hP, hQ⟩ := not_or.mp hnot
    rw [(hcell' k).2 hQ, (hcell k).2 hP]
  · have hsecond : (∃ k, Q k ∧ b.1[k.val] = true) ↔ ∃ k, Q k ∧ a.1[k.val] = true :=
      exists_congr fun k => and_congr_right fun hQ => by rw [hkept k hQ]
    rw [hhit', hhit, hsecond, or_assoc, ← exists_or]
    simp only [or_and_right]

/-- The same draw twice restores the display. -/
theorem Draws.cells_restored {P : Fin 2048 → Prop} {a b b' c : DrawAcc} (hab : Draws P a b) (hbc : Draws P b' c)
    (hb : b'.1 = b.1) (k : Fin 2048) : c.1[k.val] = a.1[k.val] := by
  by_cases hP : P k
  · rw [(hbc.1 k).1 hP, hb, (hab.1 k).1 hP, Bool.not_not]
  · rw [(hbc.1 k).2 hP, hb, (hab.1 k).2 hP]

/-! ## From a pixel to a sprite -/

theorem drawPixel_draws (x0 y0 row : Byte) (r c : Nat) (acc : DrawAcc) :
    Draws (fun k => spriteBit row c = true ∧ k = spriteCell x0 y0 r c) acc (drawPixel x0 y0 row r acc c) := by
  refine ⟨fun k => ?_, ?_⟩
  · rw [drawPixel_cell]
    exact ⟨fun h => if_pos h, fun h => if_neg h⟩
  · rw [drawPixel_hit]
    simp [and_assoc]

/-- The first `n` columns of a sprite row cover a cell with a 1 bit. -/
def RowCovers (x0 y0 row : Byte) (r n : Nat) (k : Fin 2048) : Prop :=
  ∃ c, c < n ∧ spriteBit row c = true ∧ k = spriteCell x0 y0 r c

theorem rowCovers_succ (x0 y0 row : Byte) (r n : Nat) (k : Fin 2048) :
    (RowCovers x0 y0 row r n k ∨ (spriteBit row n = true ∧ k = spriteCell x0 y0 r n)) ↔ RowCovers x0 y0 row r (n + 1) k := by
  simp only [RowCovers, Nat.lt_succ_iff_lt_or_eq, or_and_right, exists_or, exists_eq_left]

theorem drawColumns_draws (x0 y0 row : Byte) {r : Nat} (hr : r < 16) (acc : DrawAcc) {n : Nat} (hn : n ≤ 8) :
    Draws (RowCovers x0 y0 row r n) acc ((List.range n).foldl (drawPixel x0 y0 row r) acc) := by
  induction n with
  | zero => exact (Draws.refl acc).congr fun k => by simp [RowCovers]
  | succ n ih =>
    rw [List.range_succ, List.foldl_append, List.foldl_cons, List.foldl_nil]
    refine ((ih (by omega)).trans (drawPixel_draws x0 y0 row r n _) ?_).congr (rowCovers_succ x0 y0 row r n)
    rintro k ⟨c, hc, -, rfl⟩ ⟨-, hcell⟩
    obtain ⟨-, heq⟩ := spriteCell_inj hr hr (by omega) (by omega) hcell
    omega

theorem drawRow_draws (x0 y0 row : Byte) {r : Nat} (hr : r < 16) (acc : DrawAcc) :
    Draws (RowCovers x0 y0 row r 8) acc (drawRow x0 y0 acc r row) := drawColumns_draws x0 y0 row hr acc (Nat.le_refl 8)

/-- A sprite covers a cell when one of its rows does. -/
theorem spriteCovers_iff {s : State} {x0 y0 : Byte} {n : Nat} {k : Fin 2048} :
    SpriteCovers s x0 y0 n k ↔ ∃ r, r < n ∧ RowCovers x0 y0 (s.memRead (s.effAddr r)) r 8 k := by
  have hbyte : ∀ r, s.memRead (s.effAddr r) = s.memRead (s.i.toNat + r) := fun r => s.memRead_mod _
  simp only [SpriteCovers, RowCovers, spriteBit, spriteCell, Fin.ext_iff, hbyte, and_comm]

theorem spriteCovers_succ (s : State) (x0 y0 : Byte) (n : Nat) (k : Fin 2048) :
    (SpriteCovers s x0 y0 n k ∨ RowCovers x0 y0 (s.memRead (s.effAddr n)) n 8 k) ↔ SpriteCovers s x0 y0 (n + 1) k := by
  simp only [spriteCovers_iff, Nat.lt_succ_iff_lt_or_eq, or_and_right, exists_or, exists_eq_left]

/-- The rows of a sprite draw exactly what it covers: no two of its pixels fall on one cell (R184 (a)). -/
theorem drawRows_draws (s : State) (x0 y0 : Byte) {n : Nat} (hn : n ≤ 16) :
    Draws (SpriteCovers s x0 y0 n) (s.gfx, false) (drawRows s x0 y0 n) := by
  induction n with
  | zero => exact (Draws.refl _).congr fun k => by simp [SpriteCovers]
  | succ n ih =>
    refine ((ih (by omega)).trans (drawRow_draws x0 y0 _ (by omega) _) ?_).congr (spriteCovers_succ s x0 y0 n)
    intro k hcov
    obtain ⟨r, hr, c, hc, -, rfl⟩ := spriteCovers_iff.mp hcov
    rintro ⟨c', hc', -, hcell⟩
    obtain ⟨heq, -⟩ := spriteCell_inj (by omega) (by omega) hc hc' hcell
    omega

/-! ## The instruction -/

/-- What a draw leaves on the display and in the collision flag (R183). -/
def State.drawn (s : State) (x y n : Nibble) : DrawAcc := drawRows s (s.reg x) (s.reg y) n.toNat

theorem State.drawn_draws (s : State) (x y n : Nibble) :
    Draws (SpriteCovers s (s.reg x) (s.reg y) n.toNat) (s.gfx, false) (s.drawn x y n) :=
  drawRows_draws s _ _ (by omega)

theorem exec_drw (x y n : Nibble) (s : State) :
    exec (.drw x y n) s =
      .next (((s.setGfx (s.drawn x y n).1).setFlag (s.drawn x y n).2).setRedraw true).advance := rfl

theorem exec_drw_cell {x y n : Nibble} {s t : State} (h : exec (.drw x y n) s = .next t) (k : Fin 2048) :
    t.cell k = (s.drawn x y n).1[k.val] := by
  cases h
  rfl

theorem exec_drw_vf {x y n : Nibble} {s t : State} (h : exec (.drw x y n) s = .next t) :
    t.reg 0xF#4 = if (s.drawn x y n).2 then 1 else 0 := by
  cases h
  exact State.setFlag_reg_vf _ _

theorem exec_drw_regsSameExcept {x y n : Nibble} {s t : State} (h : exec (.drw x y n) s = .next t) :
    RegsSameExcept [0xF#4] s t := by
  cases h
  exact State.setFlag_regsSameExcept (s.setGfx _) _

theorem State.drawn_hit (s : State) (x y n : Nibble) :
    (s.drawn x y n).2 = true ↔ ∃ k, SpriteCovers s (s.reg x) (s.reg y) n.toNat k ∧ s.cell k = true :=
  (s.drawn_draws x y n).2.trans (or_iff_right Bool.false_ne_true)

/-- VF after a draw is 1 exactly when a covered cell was set (R183, R184 (d)). -/
theorem exec_drw_vf_eq_one_iff {x y n : Nibble} {s t : State} (h : exec (.drw x y n) s = .next t) :
    t.reg 0xF#4 = 1 ↔ ∃ k, SpriteCovers s (s.reg x) (s.reg y) n.toNat k ∧ s.cell k = true := by
  rw [exec_drw_vf h, ← State.drawn_hit]
  cases (s.drawn x y n).2 <;> decide

/-- Settles O47: the rows draw what the sprite covers, and the flag is the collision they saw. -/
theorem drawFlipsExactlyTheCoveredCells : Obligations.DrawFlipsExactlyTheCoveredCells := by
  intro s x y n
  have hexec := exec_drw x y n s
  refine ⟨_, hexec, (s.drawn_draws x y n).1, (exec_drw_vf_eq_one_iff hexec).mpr, fun hnot => ?_,
    exec_drw_regsSameExcept hexec, rfl, rfl, exec_sameExcept hexec⟩
  rw [exec_drw_vf hexec, if_neg (mt (s.drawn_hit x y n).mp hnot)]

/-! ## Two draws of one sprite -/

/-- What a sprite covers depends on its bytes and its place only, not on the display. -/
theorem spriteCovers_congr {s t : State} (hi : t.i = s.i) (hmem : ∀ a, t.memRead a = s.memRead a) (x0 y0 : Byte)
    (n : Nat) (k : Fin 2048) : SpriteCovers t x0 y0 n k ↔ SpriteCovers s x0 y0 n k := by
  simp only [SpriteCovers, hi, hmem]

/-- The second draw covers what the first covered, when neither coordinate is VF. -/
theorem spriteCovers_after_draw {x y n : Nibble} {s t : State} (h : exec (.drw x y n) s = .next t) (hx : x ≠ 0xF#4)
    (hy : y ≠ 0xF#4) (k : Fin 2048) :
    SpriteCovers t (t.reg x) (t.reg y) n.toNat k ↔ SpriteCovers s (s.reg x) (s.reg y) n.toNat k := by
  have hreg := exec_drw_regsSameExcept h
  have hframe := exec_sameExcept h
  rw [hreg x (mt List.mem_singleton.mp hx), hreg y (mt List.mem_singleton.mp hy)]
  exact spriteCovers_congr (hframe .i (by simp [writtenParts])) (hframe .mem (by simp [writtenParts])) _ _ _ k

/-- Settles O48: the second draw flips the same cells back, and a covered cell is set before it exactly when the first draw
lit it. -/
theorem drawingTwiceRestoresTheDisplay : Obligations.DrawingTwiceRestoresTheDisplay := by
  intro s x y n hx hy
  obtain ⟨t, ht⟩ : ∃ t, exec (.drw x y n) s = .next t := ⟨_, exec_drw x y n s⟩
  obtain ⟨u, hu⟩ : ∃ u, exec (.drw x y n) t = .next u := ⟨_, exec_drw x y n t⟩
  have hcovers := spriteCovers_after_draw ht hx hy
  have hfirst := s.drawn_draws x y n
  have hsecond := (t.drawn_draws x y n).congr hcovers
  refine ⟨t, u, ht, hu, fun k => ?_, ?_⟩
  · have hgfx : t.gfx = (s.drawn x y n).1 := by
      cases ht
      rfl
    rw [exec_drw_cell hu]
    exact hfirst.cells_restored hsecond hgfx k
  · rw [exec_drw_vf_eq_one_iff hu]
    refine exists_congr fun k => and_congr_left fun hlit => (hcovers k).trans ?_
    rw [exec_drw_cell ht] at hlit
    constructor
    · intro hcov
      rwa [(hfirst.1 k).1 hcov, Bool.not_eq_true'] at hlit
    · intro hdark
      by_contra hnot
      rw [(hfirst.1 k).2 hnot] at hlit
      exact Bool.false_ne_true (hdark.symm.trans hlit)

end Sys2Proof.Machine
end
